-- ==== Sys2Proof/Word.lean ====
section
/-! DEFINITION. The value types of the hardware (00_scope.md R7, R10; 30_encoding.md R69): unsigned 8-bit and 16-bit values, under the document's names. -/

namespace Sys2Proof

/-- A byte, 0..=255 (R7 `BYTE_W`). -/
abbrev Byte := BitVec 8

/-- A 16-bit word, 0..=65535 (R7 `WORD_W`); also the command word `cw` (R60). -/
abbrev Word := BitVec 16

/-- The document's Data type: a byte moved over the bus. -/
abbrev Data := Byte

/-- The document's Flags type: the byte-width bitmask held in `sr`. -/
abbrev Flags := Byte

/-- The document's Address type. -/
abbrev Address := Word

end Sys2Proof
end

