-- ==== Sys2Proof/Config.lean ====
section
/-! DEFINITION. The two open parameters of the hardware (00_scope.md R8; 92_eei_decisions.md D13, D14) as plain data: `SetupSource`, what SETUP drives, and `ABSENT_READ_POLICY`, what the driver does with an absent read. Their reference values stand in Machine/Params.lean. -/

namespace Sys2Proof

/-- The direction of a bus transaction "from the CPU's point of view", exactly two variants (10_state.md R30). -/
inductive BusMode where
  /-- memory to CPU -/
  | read
  /-- CPU to memory -/
  | write
deriving DecidableEq, Repr

/-- The block state handed to `SetupSource` (42_bus_cycle.md R95): the ten-tuple of the registers and the bus lines, and nothing else (no phase, trace, memory or history). -/
structure BlockView where
  pc : Word
  sp : Word
  a : Byte
  sr : Flags
  ir : Byte
  mar : Word
  mdr : Byte
  addrBus : Address
  dataBus : Data
  rwb : BusMode
deriving DecidableEq, Repr

/-- What SETUP drives: the triple (Address, Data, BusMode) a `SetupSource` returns (R95). -/
structure BusDrive where
  addr : Address
  data : Data
  mode : BusMode
deriving DecidableEq, Repr

/-- A `SetupSource`: a total function of the ten-tuple to a triple (R8, R95), written as plain data: the triple for the listed tuples (the first row that fits), and one triple for every other tuple. The ten-tuple has finitely many values, so every total function has such a table (Obligations.SetupTablesExpressEveryFunction). DESIGN CHOICE (log 2). -/
structure SetupSource where
  otherwise : BusDrive
  rows : List (BlockView × BusDrive)
deriving DecidableEq, Repr

/-- `ABSENT_READ_POLICY` (20_memory.md R58): what the driver does when a READ service finds no byte. -/
inductive AbsentReadPolicy where
  /-- the run ends with `AbsentRead` -/
  | fatal
  /-- the service goes on as if memory had returned the byte, and memory is not written -/
  | fill (b : Data)
deriving DecidableEq, Repr

/-- The open parameters together: fixed for a run, read by the step, written by no step (10_state.md R35). -/
structure Config where
  setupSource : SetupSource
  absentRead : AbsentReadPolicy
deriving DecidableEq, Repr

end Sys2Proof
end

