-- ==== Sys2Proof/Syntax.lean ====
section
/-! DEFINITION. The operations of the block as syntax: one constructor of `Instr` for each row of spec/opcode_table.json (30_encoding.md R62), the command word's fields (R60), the field values of each operation, and its assembly spelling (R73). -/

namespace Sys2Proof

/-- The named status flags, exactly two (40_flag_ops.md R77). -/
inductive StatusFlag where
  | zro
  | neg
deriving DecidableEq, Repr

/-- An operation of the block with its operands (30_encoding.md R62): one constructor for each row of the opcode table, RDREG being ten rows. -/
inductive Instr where
  /-- `NOP`, the idle step (R90) -/
  | nop
  /-- `TOMASK f`, the document's `to_mask` (R78) -/
  | tomask (f : StatusFlag)
  /-- `GETF f`, `get_flag` (R79) -/
  | getf (f : StatusFlag)
  /-- `SETF f, v`, `set_flag` (R80) -/
  | setf (f : StatusFlag) (v : Bool)
  /-- `SETA imm8`, `set_a` (R86) -/
  | seta (imm8 : Data)
  /-- `SETUP`, `setup_cycle` (R98) -/
  | setup
  /-- `SERVICE imm8`, the block's side of the driver's service step (R99) -/
  | service (imm8 : Data)
  /-- `COMPLETE`, `complete_cycle` (R102) -/
  | complete
  /-- `RDREG pc` (R88), and so on in the order of R65 -/
  | rdregPc
  | rdregSp
  | rdregA
  | rdregSr
  | rdregIr
  | rdregMar
  | rdregMdr
  | rdregAddrBus
  | rdregDataBus
  | rdregRwb
deriving DecidableEq, Repr

/-- The one command format (R60): `op = cw[15:12]`, `sel = cw[11:8]`, `imm8 = cw[7:0]`. -/
structure CommandFields where
  op : BitVec 4
  sel : BitVec 4
  imm8 : BitVec 8
deriving DecidableEq, Repr

/-- The operation's mnemonic in spec/opcode_table.json (an RDREG row under the table's own alias). -/
def Instr.mnemonic : Instr → String
  | .nop => "NOP"
  | .tomask _ => "TOMASK"
  | .getf _ => "GETF"
  | .setf _ _ => "SETF"
  | .seta _ => "SETA"
  | .setup => "SETUP"
  | .service _ => "SERVICE"
  | .complete => "COMPLETE"
  | .rdregPc => "RDREG_pc"
  | .rdregSp => "RDREG_sp"
  | .rdregA => "RDREG_a"
  | .rdregSr => "RDREG_sr"
  | .rdregIr => "RDREG_ir"
  | .rdregMar => "RDREG_mar"
  | .rdregMdr => "RDREG_mdr"
  | .rdregAddrBus => "RDREG_addr_bus"
  | .rdregDataBus => "RDREG_data_bus"
  | .rdregRwb => "RDREG_rwb"

/-- A flag's name in assembly (R73). -/
def StatusFlag.assembly : StatusFlag → String
  | .zro => "ZRO"
  | .neg => "NEG"

/-- The assembly spelling of an operation (R73); bytes in decimal, booleans as 1 and 0. -/
def Instr.assembly : Instr → String
  | .nop => "NOP"
  | .tomask f => "TOMASK " ++ f.assembly
  | .getf f => "GETF " ++ f.assembly
  | .setf f v => "SETF " ++ f.assembly ++ (if v then ", 1" else ", 0")
  | .seta imm8 => "SETA " ++ toString imm8.toNat
  | .setup => "SETUP"
  | .service imm8 => "SERVICE " ++ toString imm8.toNat
  | .complete => "COMPLETE"
  | .rdregPc => "RDREG pc"
  | .rdregSp => "RDREG sp"
  | .rdregA => "RDREG a"
  | .rdregSr => "RDREG sr"
  | .rdregIr => "RDREG ir"
  | .rdregMar => "RDREG mar"
  | .rdregMdr => "RDREG mdr"
  | .rdregAddrBus => "RDREG addr_bus"
  | .rdregDataBus => "RDREG data_bus"
  | .rdregRwb => "RDREG rwb"

/-- The pseudo-operations `CLRF f` = `SETF f, 0` and `STF f` = `SETF f, 1` (R74). -/
def Instr.clrf (f : StatusFlag) : Instr := .setf f false
def Instr.stf (f : StatusFlag) : Instr := .setf f true

end Sys2Proof
end

