-- ==== Sys2Proof/WellFormed.lean ====
section
/-! DEFINITION. When a command word's fields are well formed (30_encoding.md R61: "A field, or part of a field, that an operation does not use must be zero"; R63, R65, R67 for the fields it does use; R70 for the reserved rest). The checks are written over the fields, apart from the decoder, which is compared with them (Obligations.DecoderAcceptsExactlyTheLegalWords). -/

namespace Sys2Proof

/-- `op` is one of the nine operation codes 0x0..0x8 (R62; R70 (a)). -/
def CommandFields.opAssigned (c : CommandFields) : Bool := c.op.toNat ≤ 8

/-- `sel` is unused and zero (R61; R70 (b), (e)). -/
def CommandFields.selUnused (c : CommandFields) : Bool := c.sel == 0

/-- `sel` is a flag select: `sel[3:1]` is 000 (R63; R70 (c), (d)). -/
def CommandFields.selIsFlag (c : CommandFields) : Bool := c.sel.toNat ≤ 1

/-- `sel` is a register select, 0..9 (R65; R70 (f)). -/
def CommandFields.selIsRegister (c : CommandFields) : Bool := c.sel.toNat ≤ 9

/-- `imm8` is unused and zero (R61; R70 (b), (c), (f)). -/
def CommandFields.immUnused (c : CommandFields) : Bool := c.imm8 == 0

/-- `imm8` is a boolean: `imm8[7:1]` is zero (R67 (b); R70 (d)). -/
def CommandFields.immIsBool (c : CommandFields) : Bool := c.imm8.toNat ≤ 1

/-- The fields are those of a legal command: the checks its operation code asks for hold (the `mask` column of R62). -/
def CommandFields.legal (c : CommandFields) : Bool :=
  c.opAssigned &&
  match c.op.toNat with
  | 0 => c.selUnused && c.immUnused
  | 1 => c.selIsFlag && c.immUnused
  | 2 => c.selIsFlag && c.immUnused
  | 3 => c.selIsFlag && c.immIsBool
  | 4 => c.selUnused
  | 5 => c.selUnused && c.immUnused
  | 6 => c.selUnused
  | 7 => c.selUnused && c.immUnused
  | _ => c.selIsRegister && c.immUnused

/-- The flag-select bit (R63): 0 for ZRO, 1 for NEG. -/
def StatusFlag.sel : StatusFlag → BitVec 4
  | .zro => 0
  | .neg => 1

/-- The fields of an operation: the columns `op`, `sel`, `imm8` of R62's map. -/
def Instr.fields : Instr → CommandFields
  | .nop => ⟨0x0, 0, 0⟩
  | .tomask f => ⟨0x1, f.sel, 0⟩
  | .getf f => ⟨0x2, f.sel, 0⟩
  | .setf f v => ⟨0x3, f.sel, if v then 1 else 0⟩
  | .seta imm8 => ⟨0x4, 0, imm8⟩
  | .setup => ⟨0x5, 0, 0⟩
  | .service imm8 => ⟨0x6, 0, imm8⟩
  | .complete => ⟨0x7, 0, 0⟩
  | .rdregPc => ⟨0x8, 0, 0⟩
  | .rdregSp => ⟨0x8, 1, 0⟩
  | .rdregA => ⟨0x8, 2, 0⟩
  | .rdregSr => ⟨0x8, 3, 0⟩
  | .rdregIr => ⟨0x8, 4, 0⟩
  | .rdregMar => ⟨0x8, 5, 0⟩
  | .rdregMdr => ⟨0x8, 6, 0⟩
  | .rdregAddrBus => ⟨0x8, 7, 0⟩
  | .rdregDataBus => ⟨0x8, 8, 0⟩
  | .rdregRwb => ⟨0x8, 9, 0⟩

/-- An operation is well formed when its fields pass the checks. Operands are typed (R63: "A model carries `StatusFlag` as a two-constructor type"), so every term passes: what can be ill formed is a word's fields. -/
abbrev Instr.WellFormed (i : Instr) : Prop := i.fields.legal = true

end Sys2Proof
end

