-- ==== Sys2Proof/Decode.lean ====
section
/-! DEFINITION. The decoder of command words (30_encoding.md R60 to R71), total and stateless, refusing every reserved word by the name of its case in R70; after it the encoder, written from the `match` column of R62, and the operation map itself as mask and match rows. -/

namespace Sys2Proof

/-- Why a command word is reserved (R70). -/
inductive ReservedWord where
  /-- R70 (a): `op` in 0x9..=0xF -/
  | opUnassigned
  /-- R70 (b), (e): `sel` is unused by this operation and not zero -/
  | selNotZero
  /-- R70 (c), (d): `sel[3:1]` of a flag select is not zero -/
  | noSuchFlag
  /-- R70 (f): a register select in 10..=15 -/
  | noSuchRegister
  /-- R70 (b), (c), (f): `imm8` is unused by this operation and not zero -/
  | immNotZero
  /-- R70 (d): `imm8[7:1]` of SETF is not zero -/
  | immNotBool
deriving DecidableEq, Repr

/-- `op = cw[15:12]`, `sel = cw[11:8]`, `imm8 = cw[7:0]` (R60). -/
def fieldsOf (cw : Word) : CommandFields :=
  { op := cw.extractLsb' 12 4, sel := cw.extractLsb' 8 4, imm8 := cw.extractLsb' 0 8 }

/-- The flag a flag select names (R63): `sel[0]` = 0 for ZRO, 1 for NEG, `sel[3:1]` must be 000. -/
def flagSelect (sel : BitVec 4) : Except ReservedWord StatusFlag :=
  match sel.toNat with
  | 0 => .ok .zro
  | 1 => .ok .neg
  | _ => .error .noSuchFlag

/-- The RDREG a register select names (R65); 10 to 15 are reserved. -/
def registerSelect (sel : BitVec 4) : Except ReservedWord Instr :=
  match sel.toNat with
  | 0 => .ok .rdregPc
  | 1 => .ok .rdregSp
  | 2 => .ok .rdregA
  | 3 => .ok .rdregSr
  | 4 => .ok .rdregIr
  | 5 => .ok .rdregMar
  | 6 => .ok .rdregMdr
  | 7 => .ok .rdregAddrBus
  | 8 => .ok .rdregDataBus
  | 9 => .ok .rdregRwb
  | _ => .error .noSuchRegister

/-- An operation whose `sel` must be zero (R61). -/
def noSelect (sel : BitVec 4) (i : Instr) : Except ReservedWord Instr :=
  if sel = 0 then .ok i else .error .selNotZero

/-- An operation whose `imm8` must be zero (R61), given what its `sel` decodes to. -/
def noImmediate (imm8 : BitVec 8) (r : Except ReservedWord Instr) : Except ReservedWord Instr :=
  match r with
  | .error e => .error e
  | .ok i => if imm8 = 0 then .ok i else .error .immNotZero

/-- An operation on the flag `sel` selects. -/
def withFlag (sel : BitVec 4) (mk : StatusFlag → Instr) : Except ReservedWord Instr :=
  match flagSelect sel with
  | .error e => .error e
  | .ok f => .ok (mk f)

/-- SETF's boolean: `imm8[0]`, with `imm8[7:1]` zero (R67 (b)). -/
def setfBoolean (imm8 : BitVec 8) (r : Except ReservedWord (Bool → Instr)) : Except ReservedWord Instr :=
  match r with
  | .error e => .error e
  | .ok mk => match imm8.toNat with
    | 0 => .ok (mk false)
    | 1 => .ok (mk true)
    | _ => .error .immNotBool

/-- SETF's flag, before its boolean is read. -/
def setfFlag (sel : BitVec 4) : Except ReservedWord (Bool → Instr) :=
  match flagSelect sel with
  | .error e => .error e
  | .ok f => .ok (.setf f)

/-- The operation the fields stand for, by operation code (R62). -/
def decodeFields (c : CommandFields) : Except ReservedWord Instr :=
  match c.op.toNat with
  | 0 => noImmediate c.imm8 (noSelect c.sel .nop)
  | 1 => noImmediate c.imm8 (withFlag c.sel .tomask)
  | 2 => noImmediate c.imm8 (withFlag c.sel .getf)
  | 3 => setfBoolean c.imm8 (setfFlag c.sel)
  | 4 => noSelect c.sel (.seta c.imm8)
  | 5 => noImmediate c.imm8 (noSelect c.sel .setup)
  | 6 => noSelect c.sel (.service c.imm8)
  | 7 => noImmediate c.imm8 (noSelect c.sel .complete)
  | 8 => noImmediate c.imm8 (registerSelect c.sel)
  | _ => .error .opUnassigned

/-- "Decoding is total and needs no state: `decode(cw)` is a function of the 16 bits alone" (R71): one of the nine operations with its fields, or the name of the reserved case. -/
def decode (cw : Word) : Except ReservedWord Instr := decodeFields (fieldsOf cw)

/-- A flag's bit in a command word: `sel[0]` is `cw[8]` (R60, R63). -/
def flagBit : StatusFlag → Word
  | .zro => 0x0000
  | .neg => 0x0100

/-- The command word of an operation: its `match` of R62 with its operand bits. -/
def encode : Instr → Word
  | .nop => 0x0000
  | .tomask f => 0x1000 ||| flagBit f
  | .getf f => 0x2000 ||| flagBit f
  | .setf f v => 0x3000 ||| flagBit f ||| (if v then 0x0001 else 0x0000)
  | .seta imm8 => 0x4000 ||| imm8.setWidth 16
  | .setup => 0x5000
  | .service imm8 => 0x6000 ||| imm8.setWidth 16
  | .complete => 0x7000
  | .rdregPc => 0x8000
  | .rdregSp => 0x8100
  | .rdregA => 0x8200
  | .rdregSr => 0x8300
  | .rdregIr => 0x8400
  | .rdregMar => 0x8500
  | .rdregMdr => 0x8600
  | .rdregAddrBus => 0x8700
  | .rdregDataBus => 0x8800
  | .rdregRwb => 0x8900

/-- One row of the operation map (R62): "A command word `cw` selects the row for which `cw & mask == match`". -/
structure OpcodeRow where
  mnemonic : String
  matchBits : Word
  mask : Word
deriving DecidableEq, Repr

/-- The row selects the word. -/
def OpcodeRow.selects (r : OpcodeRow) (cw : Word) : Bool := cw &&& r.mask == r.matchBits

/-- The operation map, row by row as R62 and spec/opcode_table.json give it. -/
def opcodeRows : List OpcodeRow :=
  [⟨"NOP", 0x0000, 0xFFFF⟩,
   ⟨"TOMASK", 0x1000, 0xFEFF⟩,
   ⟨"GETF", 0x2000, 0xFEFF⟩,
   ⟨"SETF", 0x3000, 0xFEFE⟩,
   ⟨"SETA", 0x4000, 0xFF00⟩,
   ⟨"SETUP", 0x5000, 0xFFFF⟩,
   ⟨"SERVICE", 0x6000, 0xFF00⟩,
   ⟨"COMPLETE", 0x7000, 0xFFFF⟩] ++
  [⟨"RDREG_pc", 0x8000, 0xFFFF⟩,
   ⟨"RDREG_sp", 0x8100, 0xFFFF⟩,
   ⟨"RDREG_a", 0x8200, 0xFFFF⟩,
   ⟨"RDREG_sr", 0x8300, 0xFFFF⟩,
   ⟨"RDREG_ir", 0x8400, 0xFFFF⟩,
   ⟨"RDREG_mar", 0x8500, 0xFFFF⟩,
   ⟨"RDREG_mdr", 0x8600, 0xFFFF⟩,
   ⟨"RDREG_addr_bus", 0x8700, 0xFFFF⟩,
   ⟨"RDREG_data_bus", 0x8800, 0xFFFF⟩,
   ⟨"RDREG_rwb", 0x8900, 0xFFFF⟩]

/-- The command word that the low `nbits` bits of `w` make (30_encoding.md R72: every command is one 16-bit word, so there is no byte order to apply). -/
def commandOf (nbits w : Nat) : Word := BitVec.ofNat 16 (w % 2 ^ nbits)

/-- The operation the decoder reads from an opcode-table word of `nbits` bits; none where the word is reserved, or does not fit in 16 bits. -/
def decodeTableWord (nbits w : Nat) : Option Instr :=
  if w % 2 ^ nbits < 2 ^ 16 then
    match decode (commandOf nbits w) with
    | .ok i => some i
    | .error _ => none
  else none

end Sys2Proof
end

