-- ==== Sys2Proof/Machine/Params.lean ====
section
/-! DEFINITION. The reference values of the two open parameters (00_scope.md R8; 30_encoding.md R68): what the document's reference implementation does. -/

namespace Sys2Proof.Machine

/-- The reference `SetupSource` triple: address `0x00FF`, data 42, direction WRITE (R8, R68). -/
def referenceDrive : BusDrive := { addr := 0x00FF, data := 42, mode := .write }

/-- The reference parameters (R8): the constant `SetupSource`, and the `fatal` absent-read policy. -/
def referenceConfig : Config :=
  { setupSource := { otherwise := referenceDrive, rows := [] }, absentRead := .fatal }

end Sys2Proof.Machine
end

