-- ==== Sys2Proof/Machine/State.lean ====
section
/-! DEFINITION. The state of the machine (10_state.md): the register file, the bus lines, the model's bookkeeping (phase monitor, bus event trace, fault record), the memory device, and the model's own fields (open parameters, result port, the driver's schedule); the reasons a step can stop; reset. -/

namespace Sys2Proof.Machine

/-- The phase monitor's three values (R31). -/
inductive Phase where
  /-- no bus cycle in progress -/
  | idle
  /-- the setup phase is done, the service step is owed -/
  | asserted
  /-- the one memory access is done, COMPLETE is owed -/
  | serviced
deriving DecidableEq, Repr

/-- The three operations of a bus cycle, as a `ProtocolViolation` names them (60_exceptions.md R109). -/
inductive BusOp where
  | setup
  | service
  | complete
deriving DecidableEq, Repr

/-- The faults of the model, the complete list of 60_exceptions.md R109, in its order. -/
inductive Fault where
  /-- Raised by decoding a reserved word (R110). Safe: the source has no such word, and hardware that ignores one has fewer faults. -/
  | illegalCommand (cw : Word)
  /-- Raised by SETUP, SERVICE, SVC, COMPLETE in the wrong phase (R111): the source's "undefined behavior". Safe: the model gives it no value. -/
  | protocolViolation (op : BusOp) (phase : Phase)
  /-- Raised by SVC in a READ cycle when memory holds no byte at the address and the policy is `fatal` (R112): the reference driver's behaviour. Safe. -/
  | absentRead (addr : Address)
deriving DecidableEq, Repr

/-- The refusals. No meaning of this model answers with one. -/
inductive Refusal where
  /-- Raised by an arm of `exec` whose instruction has no meaning yet: none is left. Safe. -/
  | notModelled (mnemonic : String)
deriving DecidableEq, Repr

/-- One event of the bus event trace (R32, 42_bus_cycle.md R96): a line was driven to a value. -/
inductive BusEvent where
  | driveAddr (v : Address)
  | driveData (v : Data)
  | driveMode (m : BusMode)
deriving DecidableEq, Repr

/-- A value returned on the result port, typed (30_encoding.md R66: "A model returns the typed value (Flags, bool, Data, Address, BusMode) and uses the 16-bit form only at the port"). -/
inductive PortValue where
  | mask (v : Flags)
  | flag (v : Bool)
  | byte (v : Data)
  | word (v : Address)
  | mode (m : BusMode)
deriving DecidableEq, Repr

/-- What the driver does next (R37, R142): one clock edge with the pins `rst` and `cw` (30_encoding.md R76), or the service step SVC (R100), which joins the memory device to the block. DESIGN CHOICE (log 1). -/
inductive DriverEvent where
  | edge (rst : Bool) (cw : Word)
  | svc
deriving DecidableEq, Repr

/-- The memory device's map (R34): the addresses that hold a byte, strictly rising; an address not listed is absent (`None`), which is not a stored zero. Its canonical form is `Memory.wf` (Ops.lean). -/
abbrev Memory := List Host.Cell

/-- Everything the spec gives the machine (10_state.md), and the model's own three fields. -/
structure State where
  /-- program counter (R14) -/
  pc : Word
  /-- stack pointer (R15) -/
  sp : Word
  /-- accumulator (R16) -/
  a : Byte
  /-- status register: NEG bit 7, ZRO bit 1, the rest reserved (R17, R22) -/
  sr : Flags
  /-- instruction register (R18) -/
  ir : Byte
  /-- memory address register (R19) -/
  mar : Word
  /-- memory data register (R20) -/
  mdr : Byte
  /-- bus line `addr_bus` (R28) -/
  addrBus : Address
  /-- bus line `data_bus` (R29) -/
  dataBus : Data
  /-- bus line `rwb` (R30) -/
  rwb : BusMode
  /-- the phase monitor (R31) -/
  phase : Phase
  /-- the bus event trace, oldest first (R32) -/
  trace : List BusEvent
  /-- the fault record (R33) -/
  fault : Option Fault
  /-- the memory device (R34) -/
  mem : Memory
  /-- the model's own: the open parameters (R8, R35; log 2, log 3) -/
  config : Config
  /-- the model's own: what the result port carries for the last event (R66; log 4) -/
  result : Option PortValue
  /-- the model's own: the driver's schedule, next event first (R142; log 1) -/
  driver : List DriverEvent
deriving DecidableEq, Repr

/-- The outcome of a step or a meaning. -/
abbrev Outcome := Host.Outcome State Fault Refusal

/-- The machine right after reset (R36, R125), with a fresh memory (R126) and the reference parameters (R8; log 2, log 3); the driver has issued nothing (log 1). -/
def State.reset : State where
  pc := 0x0000
  sp := 0x0000
  a := 0x00
  sr := 0x00
  ir := 0x00
  mar := 0x0000
  mdr := 0x00
  addrBus := 0x0000
  dataBus := 0x00
  rwb := .read
  phase := .idle
  trace := []
  fault := none
  mem := []
  config := referenceConfig
  result := none
  driver := []

end Sys2Proof.Machine
end

