-- ==== Sys2Proof/Machine/Flags.lean ====
section
/-! DEFINITION. The status flags of `sr`: masks, reading and writing one flag, and the ZRO/NEG decoder (40_flag_ops.md R77 to R80; 41_register_file.md R85, R93). -/

namespace Sys2Proof.Machine

/-- `mask(ZRO) = 0b0000_0010`, `mask(NEG) = 0b1000_0000` (R77). -/
def mask : StatusFlag → Flags
  | .zro => 0x02
  | .neg => 0x80

/-- `get_flag`: `(sr & mask) != 0` (R79). -/
def getFlag (sr : Flags) (f : StatusFlag) : Bool := sr &&& mask f != 0

/-- `set_flag`: OR the mask in, or AND its complement (R80): the single mutation path of `sr`. -/
def setFlag (sr : Flags) (f : StatusFlag) (v : Bool) : Flags :=
  if v then sr ||| mask f else sr &&& ~~~mask f

/-- The ZRO decoder output: the byte being loaded is zero (R85). -/
def zroOf (value : Data) : Bool := value == 0

/-- The NEG decoder output: bit 7 of the byte being loaded (R85). -/
def negOf (value : Data) : Bool := value.getLsbD 7

/-- `sr` after the byte is loaded into the accumulator: ZRO first, then NEG, each through `set_flag` (R85). -/
def refreshFlags (sr : Flags) (value : Data) : Flags :=
  setFlag (setFlag sr .zro (zroOf value)) .neg (negOf value)

end Sys2Proof.Machine
end

