-- ==== Sys2Proof/Machine/Operands.lean ====
section
/-! DEFINITION. The forms values take at the block's edges: the 16-bit result port and the output pins (30_encoding.md R64, R66, R76), the ten-tuple handed to `SetupSource` and what it returns (42_bus_cycle.md R95). -/

namespace Sys2Proof.Machine

/-- `BusMode` as a bit: READ = 1, WRITE = 0 (R64). -/
def busModeBit : BusMode → Bool
  | .read => true
  | .write => false

/-- A boolean at the port: `0x0001` or `0x0000` (R66). -/
def portBool (b : Bool) : Word := if b then 0x0001 else 0x0000

/-- The 16-bit form of a returned value, always zero-extended (R66). -/
def PortValue.bits : PortValue → Word
  | .mask v => v.setWidth 16
  | .flag v => portBool v
  | .byte v => v.setWidth 16
  | .word v => v
  | .mode m => portBool (busModeBit m)

/-- The block's output pins (R76). -/
structure Pins where
  addrBus : Word
  dataBus : Byte
  rwb : Bool
  result : Word
  resultValid : Bool
deriving DecidableEq, Repr

/-- What the pins show (R76): the bus-line registers, and the result port, `result = 0x0000` with `result_valid` = 0 when the command returned nothing (R66). -/
def State.pins (s : State) : Pins where
  addrBus := s.addrBus
  dataBus := s.dataBus
  rwb := busModeBit s.rwb
  result := match s.result with
    | none => 0x0000
    | some v => v.bits
  resultValid := s.result.isSome

/-- The ten-tuple handed to `SetupSource` (R95). -/
def State.view (s : State) : BlockView where
  pc := s.pc
  sp := s.sp
  a := s.a
  sr := s.sr
  ir := s.ir
  mar := s.mar
  mdr := s.mdr
  addrBus := s.addrBus
  dataBus := s.dataBus
  rwb := s.rwb

/-- The first row of a table that fits the tuple, else the given triple. -/
def lookupDrive (otherwise : BusDrive) : List (BlockView × BusDrive) → BlockView → BusDrive
  | [], _ => otherwise
  | (key, d) :: rows, v => if key = v then d else lookupDrive otherwise rows v

/-- The triple a `SetupSource` returns for a tuple (R95). -/
def driveOf (src : SetupSource) (v : BlockView) : BusDrive := lookupDrive src.otherwise src.rows v

/-- The triple SETUP drives from this state: the tuple "as it is before SETUP writes anything" (R95). -/
def State.setupDrive (s : State) : BusDrive := driveOf s.config.setupSource s.view

end Sys2Proof.Machine
end

