-- ==== Sys2Proof/Machine/Ops.lean ====
section
/-! DEFINITION. The named operations over memory, registers, bus lines and bookkeeping: the memory device's `read` and `write` (20_memory.md R43, R44), the accumulator load (41_register_file.md R85), driving a line with its trace event (42_bus_cycle.md R96), raising a fault (60_exceptions.md R109 to R116), and the reset of the block (70_reset_and_hazards.md R125), the only way out of a fault. -/

namespace Sys2Proof.Machine

/-- The byte listed under a key. -/
def lookupCell (k : Nat) : Memory → Option Data
  | [] => none
  | (j, b) :: cells => if j = k then some b else lookupCell k cells

/-- The cells with the byte stored under a key, kept strictly rising. -/
def insertCell (k : Nat) (v : Data) : Memory → Memory
  | [] => [(k, v)]
  | (j, b) :: cells =>
    if k < j then (k, v) :: (j, b) :: cells
    else if k = j then (k, v) :: cells
    else (j, b) :: insertCell k v cells

/-- `MemRead(addr, 1)` (R43): `None` if the address was never written, else the last written byte. Total (R39), and it changes nothing (R46). -/
def Memory.read (m : Memory) (addr : Address) : Option Data := lookupCell addr.toNat m

/-- `MemWrite(addr, 1, v)` (R44): stores the byte, replacing any prior value; total, never full (R54). -/
def Memory.write (m : Memory) (addr : Address) (v : Data) : Memory := insertCell addr.toNat v m

/-- Every key is above `low`, and the keys rise strictly. -/
def risingFrom (low : Nat) : Memory → Bool
  | [] => true
  | (j, _) :: cells => low ≤ j && risingFrom (j + 1) cells

/-- The canonical form: addresses strictly rising and inside the 65536 locations (R49). An unlisted address is absent, so no entry can equal what an unlisted address reads as. -/
def Memory.wf (m : Memory) : Bool := risingFrom 0 m && m.all (fun c => c.1 < 65536)

/-- The operation returns a value on the result port (30_encoding.md R66). -/
def State.returns (s : State) (v : PortValue) : State := { s with result := some v }

/-- The operation returns nothing: `result_valid` = 0 and `result` = `0x0000` (R66). -/
def State.returnsNothing (s : State) : State := { s with result := none }

/-- `set_flag` on the status register (R80). -/
def State.writeFlag (s : State) (f : StatusFlag) (v : Bool) : State :=
  { s with sr := setFlag s.sr f v }

/-- `load_a(value)` (R85): the accumulator and both flags, one atomic step. -/
def State.loadA (s : State) (value : Data) : State :=
  { s with a := value, sr := refreshFlags s.sr value }

/-- Drive `addr_bus`, with its event at the end of the trace (R96). -/
def State.driveAddr (s : State) (v : Address) : State :=
  { s with addrBus := v, trace := s.trace ++ [.driveAddr v] }

/-- Drive `data_bus`, with its event (R96). -/
def State.driveData (s : State) (v : Data) : State :=
  { s with dataBus := v, trace := s.trace ++ [.driveData v] }

/-- Drive `rwb`, with its event (R96). -/
def State.driveMode (s : State) (m : BusMode) : State :=
  { s with rwb := m, trace := s.trace ++ [.driveMode m] }

/-- Move the phase monitor (10_state.md R31). -/
def State.enter (s : State) (p : Phase) : State := { s with phase := p }

/-- Assert a transaction: address, then data, then direction, "in that order" (42_bus_cycle.md R97). -/
def State.assertDrive (s : State) (d : BusDrive) : State :=
  ((s.driveAddr d.addr).driveData d.data).driveMode d.mode

/-- The driver stores a byte in the memory device (R44). -/
def State.store (s : State) (addr : Address) (v : Data) : State :=
  { s with mem := s.mem.write addr v }

/-- An operation of the bus cycle goes on only in its phase (R94); in any other it raises `ProtocolViolation(op, phase)` (R111). -/
def State.inPhase (s : State) (op : BusOp) (p : Phase) (t : Outcome) : Outcome :=
  if s.phase = p then t else .fault (.protocolViolation op s.phase)

/-- `raise` (00_scope.md R11; 60_exceptions.md R110 to R112, R116): no state element is written, the fault record holds the fault (10_state.md R33), and nothing is returned. -/
def State.raise (s : State) (f : Fault) : State := { s with fault := some f, result := none }

/-- Reset of the block (R125): every element owned by the block or the model takes its reset value; the memory device keeps its contents (R126). The open parameters and the driver's schedule are not the block's. It is the only way out of a faulted state (R118). -/
def State.blockReset (s : State) : State :=
  { State.reset with mem := s.mem, config := s.config, driver := s.driver }

/-- The schedule with its next event taken. -/
def State.withDriver (s : State) (d : List DriverEvent) : State := { s with driver := d }

/-- The launch state of a run (R126, R128): the reset block with the memory the driver has constructed or pre-loaded (R142), the parameters and the schedule. -/
def State.launch (mem : Memory) (config : Config) (driver : List DriverEvent) : State :=
  { State.reset with mem := mem, config := config, driver := driver }

end Sys2Proof.Machine
end

