-- ==== Sys2Proof/Machine/BusCycle.lean ====
section
/-! DEFINITION. The bus-cycle operations SETUP, SERVICE, COMPLETE and the system-level service step SVC (42_bus_cycle.md R98 to R102): each legal in one phase only (R94). -/

namespace Sys2Proof.Machine

/-- SETUP (R98): asserts what `SetupSource` returns for the state before it, and enters `ASSERTED`. -/
def execSetup (s : State) : Outcome :=
  s.inPhase .setup .idle (.next ((s.assertDrive s.setupDrive).enter .asserted).returnsNothing)

/-- The block's side of the service (R99): on READ the byte is loaded into `data_bus`; on WRITE no register or line is written and the byte is ignored. -/
def State.acceptByte (s : State) (b : Data) : State :=
  match s.rwb with
  | .read => s.driveData b
  | .write => s

/-- SERVICE imm8 (R99). -/
def execService (imm8 : Data) (s : State) : Outcome :=
  s.inPhase .service .asserted (.next ((s.acceptByte imm8).enter .serviced).returnsNothing)

/-- COMPLETE (R102): `load_a(x[data_bus])`, in both directions (R104). -/
def execComplete (s : State) : Outcome :=
  s.inPhase .complete .serviced (.next ((s.loadA s.dataBus).enter .idle).returnsNothing)

/-- The byte a READ service hands to the block (R100): what memory holds, or what the absent-read policy supplies (20_memory.md R58); none where the policy is `fatal` and memory holds nothing. -/
def State.serviceByte (s : State) : Option Data :=
  match s.mem.read s.addrBus with
  | some b => some b
  | none => match s.config.absentRead with
    | .fatal => none
    | .fill b => some b

/-- SVC (R100): the driver, the memory and the block together, one atomic step; the direction of its one memory access is `rwb`'s. -/
def serviceStep (s : State) : Outcome :=
  s.inPhase .service .asserted
    (match s.rwb with
    | .read => match s.serviceByte with
      | some b => execService b s
      | none => .fault (.absentRead s.addrBus)
    | .write => execService 0x00 (s.store s.addrBus s.dataBus))

/-- `CYCLE` (30_encoding.md R74): one whole bus cycle as the driver issues it, SETUP, SVC, COMPLETE. -/
def cycleEvents : List DriverEvent := [.edge false 0x5000, .svc, .edge false 0x7000]

end Sys2Proof.Machine
end

