-- ==== Sys2Proof/Machine/FlagOps.lean ====
section
/-! DEFINITION. The flag operations TOMASK, GETF, SETF (40_flag_ops.md R78 to R80): legal in every phase, raising nothing. -/

namespace Sys2Proof.Machine

/-- TOMASK f (R78): `result <- zext_16(mask(f))`. -/
def execTomask (f : StatusFlag) (s : State) : Outcome := .next (s.returns (.mask (mask f)))

/-- GETF f (R79): `b = (x[sr] & mask(f)) != 0x00; result <- b`. -/
def execGetf (f : StatusFlag) (s : State) : Outcome := .next (s.returns (.flag (getFlag s.sr f)))

/-- SETF f, v (R80): one bit of `sr`. -/
def execSetf (f : StatusFlag) (v : Bool) (s : State) : Outcome :=
  .next (s.writeFlag f v).returnsNothing

end Sys2Proof.Machine
end

