-- ==== Sys2Proof/Machine/RegisterOps.lean ====
section
/-! DEFINITION. The register-file operations NOP, SETA, RDREG (41_register_file.md R86, R88, R90): legal in every phase, raising nothing. -/

namespace Sys2Proof.Machine

/-- NOP (R90): nothing. -/
def execNop (s : State) : Outcome := .next s.returnsNothing

/-- SETA imm8 (R86): `load_a(imm8)`. -/
def execSeta (imm8 : Data) (s : State) : Outcome := .next (s.loadA imm8).returnsNothing

/-- RDREG pc (R88): `result <- zext_16(x[pc])`; the nine after it in the order of R65. -/
def execRdregPc (s : State) : Outcome := .next (s.returns (.word s.pc))
def execRdregSp (s : State) : Outcome := .next (s.returns (.word s.sp))
def execRdregA (s : State) : Outcome := .next (s.returns (.byte s.a))
/-- RDREG sr reads the raw byte "for inspection only" (R88 (b)). -/
def execRdregSr (s : State) : Outcome := .next (s.returns (.byte s.sr))
def execRdregIr (s : State) : Outcome := .next (s.returns (.byte s.ir))
def execRdregMar (s : State) : Outcome := .next (s.returns (.word s.mar))
def execRdregMdr (s : State) : Outcome := .next (s.returns (.byte s.mdr))
def execRdregAddrBus (s : State) : Outcome := .next (s.returns (.word s.addrBus))
def execRdregDataBus (s : State) : Outcome := .next (s.returns (.byte s.dataBus))
/-- RDREG rwb: `0x0001` for READ, `0x0000` for WRITE (R88, R66). -/
def execRdregRwb (s : State) : Outcome := .next (s.returns (.mode s.rwb))

end Sys2Proof.Machine
end

