-- ==== Sys2Proof/Machine/Dispatch.lean ====
section
/-! DEFINITION. One arm per operation: its meaning. -/

namespace Sys2Proof.Machine

def exec (i : Instr) (s : State) : Host.Outcome State Fault Refusal :=
  match i with
  | .nop => Sys2Proof.Machine.execNop s
  | .tomask f => Sys2Proof.Machine.execTomask f s
  | .getf f => Sys2Proof.Machine.execGetf f s
  | .setf f v => Sys2Proof.Machine.execSetf f v s
  | .seta imm8 => Sys2Proof.Machine.execSeta imm8 s
  | .setup => Sys2Proof.Machine.execSetup s
  | .service imm8 => Sys2Proof.Machine.execService imm8 s
  | .complete => Sys2Proof.Machine.execComplete s
  | .rdregPc => Sys2Proof.Machine.execRdregPc s
  | .rdregSp => Sys2Proof.Machine.execRdregSp s
  | .rdregA => Sys2Proof.Machine.execRdregA s
  | .rdregSr => Sys2Proof.Machine.execRdregSr s
  | .rdregIr => Sys2Proof.Machine.execRdregIr s
  | .rdregMar => Sys2Proof.Machine.execRdregMar s
  | .rdregMdr => Sys2Proof.Machine.execRdregMdr s
  | .rdregAddrBus => Sys2Proof.Machine.execRdregAddrBus s
  | .rdregDataBus => Sys2Proof.Machine.execRdregDataBus s
  | .rdregRwb => Sys2Proof.Machine.execRdregRwb s

end Sys2Proof.Machine
end

