-- ==== Sys2Proof/Machine/Sequencer.lean ====
section
/-! DEFINITION. How the next event of the driver's schedule becomes one step: the priority of 60_exceptions.md R117 (reset, recorded fault, reserved word, wrong phase, absent read), and the recording of a raised fault (10_state.md R33). -/

namespace Sys2Proof.Machine

/-- One command word taken as a command (30_encoding.md R59, R71): decode, then the operation's meaning; a reserved word raises `IllegalCommand(cw)` (60_exceptions.md R110). -/
def runCommand (cw : Word) (s : State) : Outcome :=
  match decode cw with
  | .ok i => exec i s
  | .error _ => .fault (.illegalCommand cw)

/-- A fault an event raises is recorded in the state the event met (R33, R116); log 5. -/
def settle (s : State) (o : Outcome) : Outcome :=
  match o with
  | .next t => .next t
  | .fault f => .next (s.raise f)
  | .refused r => .refused r

/-- The schedule after its first reset, if it has one: the commands issued to a faulted machine before it take no step (R33, R117 (2)). -/
def afterReset : List DriverEvent → Option (List DriverEvent)
  | [] => none
  | .edge true _ :: rest => some rest
  | .edge false _ :: rest => afterReset rest
  | .svc :: rest => afterReset rest

/-- One event, on a state with no fault recorded (R117 (1), (3) to (5)): `rst` asserted is a reset whatever the command word. -/
def runEvent (e : DriverEvent) (s : State) : Outcome :=
  match e with
  | .edge true _ => .next s.blockReset
  | .edge false cw => settle s (runCommand cw s)
  | .svc => settle s (serviceStep s)

/-- One step of the machine: a faulted machine takes no step but a reset (R33, R118); with no event issued the block holds its state (60_exceptions.md R143; log 1). -/
def sequence (s : State) : Outcome :=
  match s.fault with
  | some f => match afterReset s.driver with
    | some rest => .next (s.withDriver rest).blockReset
    | none => .fault f
  | none => match s.driver with
    | [] => .next s
    | e :: rest => runEvent e (s.withDriver rest)

/-- The state whose next event is the command word, with no fault in its way. -/
def State.issue (s : State) (cw : Word) : State :=
  { s with driver := .edge false cw :: s.driver, fault := none }

end Sys2Proof.Machine
end

