-- ==== Sys2Proof/Machine/Step.lean ====
section
/-! DEFINITION. The step of the machine, and the state in which a given opcode-table word is the next command. -/

namespace Sys2Proof.Machine

/-- One step (70_reset_and_hazards.md R139: one command per rising edge; the system-level SVC is one atomic step, R100). -/
def step (s : State) : Host.Outcome State Fault Refusal := sequence s

/-- `s` with the word as the driver's next command: the hardware fetches nothing (20_memory.md R56), so the command port is where an instruction comes from (log 1). -/
def State.withFetchWord (s : State) (nbits w : Nat) : State := s.issue (commandOf nbits w)

end Sys2Proof.Machine
end

