-- ==== Sys2Proof/Safety.lean ====
section
/-! DEFINITION. The terms claims are stated in: runs, the accumulator/flag coupling (10_state.md R26), completed runs (70_reset_and_hazards.md R129), the legal order of commands (42_bus_cycle.md R94), and the invariants of the machine. -/

namespace Sys2Proof.Machine

/-- `n` steps of the machine, stopping where a step stops. -/
def runSteps (n : Nat) (s : State) : Outcome := Host.Core.run Sys2Proof.core n s

/-- The meanings of a list of operations one after another, stopping where one stops. -/
def execAll : List Instr → State → Outcome
  | [], s => .next s
  | i :: is, s => match exec i s with
    | .next t => execAll is t
    | .fault f => .fault f
    | .refused r => .refused r

/-- The schedule that issues a list of operations as commands. -/
def commandsOf (is : List Instr) : List DriverEvent := is.map (fun i => .edge false (encode i))

/-- `rst` is asserted at this event. -/
def isReset : DriverEvent → Bool
  | .edge rst _ => rst
  | .svc => false

/-- The accumulator/flag coupling `Coupled(s)` (R26). -/
abbrev Coupled (s : State) : Prop :=
  ((s.sr &&& 0x02#8 != 0) = (s.a == 0x00)) ∧ ((s.sr &&& 0x80#8 != 0) = s.a.getLsbD 7)

/-- The state ends a completed run (R129): "no fault recorded and `phase = IDLE`". -/
abbrev Completed (s : State) : Prop := s.fault = none ∧ s.phase = .idle

/-- The bus-cycle operation an instruction is, if it is one. -/
def cycleOp : Instr → Option BusOp
  | .setup => some .setup
  | .service _ => some .service
  | .complete => some .complete
  | _ => none

/-- The phase in which a bus-cycle operation is legal (R94). -/
def phaseOf : BusOp → Phase
  | .setup => .idle
  | .service => .asserted
  | .complete => .serviced

/-- The phase a completed bus-cycle operation leaves (R94). -/
def phaseAfter : BusOp → Phase
  | .setup => .asserted
  | .service => .serviced
  | .complete => .idle

/-- "The legal command sequences are therefore exactly those whose SETUP, SERVICE and COMPLETE commands, taken in order and ignoring the six other operations, form a prefix of (SETUP SERVICE COMPLETE)*" (R94). -/
def LegalOrder (is : List Instr) : Prop :=
  ∃ n, is.filterMap cycleOp <+: (List.replicate n [BusOp.setup, .service, .complete]).flatten

/-- The operation returns a value on the result port (30_encoding.md R66): TOMASK, GETF and RDREG do. -/
def returnsValue : Instr → Bool
  | .nop => false
  | .tomask _ => true
  | .getf _ => true
  | .setf _ _ => false
  | .seta _ => false
  | .setup => false
  | .service _ => false
  | .complete => false
  | .rdregPc => true
  | .rdregSp => true
  | .rdregA => true
  | .rdregSr => true
  | .rdregIr => true
  | .rdregMar => true
  | .rdregMdr => true
  | .rdregAddrBus => true
  | .rdregDataBus => true
  | .rdregRwb => true

/-- The address last driven in a trace, or the given one. -/
def lastAddr (init : Address) : List BusEvent → Address
  | [] => init
  | .driveAddr v :: es => lastAddr v es
  | _ :: es => lastAddr init es

/-- The data byte last driven in a trace, or the given one. -/
def lastData (init : Data) : List BusEvent → Data
  | [] => init
  | .driveData v :: es => lastData v es
  | _ :: es => lastData init es

/-- The direction last driven in a trace, or the given one. -/
def lastMode (init : BusMode) : List BusEvent → BusMode
  | [] => init
  | .driveMode m :: es => lastMode m es
  | _ :: es => lastMode init es

/-- A trace made of whole setups, address then data then direction (R97), a READ setup followed by at most one serviced byte (R99). -/
def traceOrdered : List BusEvent → Bool
  | [] => true
  | .driveAddr _ :: .driveData _ :: .driveMode .read :: .driveData _ :: es => traceOrdered es
  | .driveAddr _ :: .driveData _ :: .driveMode _ :: es => traceOrdered es
  | _ => false

/-- The trace ends with a direction being driven: a setup that has not been serviced. -/
def endsWithMode : List BusEvent → Bool
  | [] => false
  | [.driveMode _] => true
  | _ :: es => endsWithMode es

/-- What every step keeps of the registers and the memory: the memory's canonical form, the reserved bits of `sr` (R25), the registers no operation writes (R14, R15, R18 to R20). -/
structure RegisterInv (s : State) : Prop where
  memCanonical : s.mem.wf = true
  srReservedClear : s.sr &&& 0x7D#8 = 0
  pcZero : s.pc = 0
  spZero : s.sp = 0
  irZero : s.ir = 0
  marZero : s.mar = 0
  mdrZero : s.mdr = 0

/-- What every step keeps of the bus: the lines hold what was last driven since reset (R96; before that the reset values, R36), the trace is ordered, and a cycle owed its service has driven its direction last. -/
structure BusInv (s : State) : Prop where
  addrIsLast : s.addrBus = lastAddr 0 s.trace
  dataIsLast : s.dataBus = lastData 0 s.trace
  modeIsLast : s.rwb = lastMode .read s.trace
  ordered : traceOrdered s.trace = true
  assertedIsFresh : s.phase = .asserted → endsWithMode s.trace = true

/-- A recorded fault describes the state it stands in, which its step did not write (60_exceptions.md R110 to R112). -/
def FaultInv (s : State) : Prop :=
  match s.fault with
  | none => True
  | some (.illegalCommand cw) => ∀ i, decode cw ≠ .ok i
  | some (.protocolViolation op phase) => s.phase = phase ∧ phase ≠ phaseOf op
  | some (.absentRead addr) =>
    s.phase = .asserted ∧ s.rwb = .read ∧ s.addrBus = addr ∧ s.mem.read addr = none ∧
      s.config.absentRead = .fatal

/-- What every step keeps of a machine with the reference `SetupSource` (42_bus_cycle.md R105): a cycle under way is a WRITE cycle, and no absent read is recorded. -/
structure ReferenceInv (s : State) : Prop where
  source : s.config.setupSource = referenceConfig.setupSource
  writing : s.phase ≠ .idle → s.rwb = .write
  noAbsentRead : ∀ addr, s.fault ≠ some (.absentRead addr)

/-- A state some run reaches: any launch (70_reset_and_hazards.md R126, R128) with a canonical memory, any parameters and any schedule, then any number of steps. -/
def Reachable (t : State) : Prop :=
  ∃ mem config driver n, Memory.wf mem = true ∧
    runSteps n (State.launch mem config driver) = .next t

/-- Two outcomes agree but for the bus event trace, which the given traces replace. -/
def agreeButTrace (o o' : Outcome) : Prop :=
  match o, o' with
  | .next t, .next t' => { t with trace := [] } = { t' with trace := [] }
  | .fault f, .fault f' => f = f'
  | .refused r, .refused r' => r = r'
  | _, _ => False

/-- Two outcomes agree but for the memory device's contents. -/
def agreeButMemory (o o' : Outcome) : Prop :=
  match o, o' with
  | .next t, .next t' => { t with mem := [] } = { t' with mem := [] }
  | .fault f, .fault f' => f = f'
  | .refused r, .refused r' => r = r'
  | _, _ => False

end Sys2Proof.Machine
end

