-- ==== Sys2Proof/Certificates/Slice0/Obligations.lean ====
section
/-! DEFINITION. The statements for the provers. -/

open Sys2Proof Sys2Proof.Machine

/-! ## Reset and the fault record -/

/-- R36: the reset value of every element, `None` at every address of a fresh memory, and a reset of the block does not change the memory. -/
def Obligations.ResetStateValues : Prop :=
  State.reset.pc = 0x0000 ∧ State.reset.sp = 0x0000 ∧ State.reset.a = 0x00 ∧ State.reset.sr = 0x00 ∧
  State.reset.ir = 0x00 ∧ State.reset.mar = 0x0000 ∧ State.reset.mdr = 0x00 ∧
  State.reset.addrBus = 0x0000 ∧ State.reset.dataBus = 0x00 ∧ State.reset.rwb = .read ∧
  State.reset.phase = .idle ∧ State.reset.trace = [] ∧ State.reset.fault = none ∧
  (∀ addr, State.reset.mem.read addr = none) ∧
  (∀ s cw rest t, s.driver = .edge true cw :: rest → step s = .next t →
    ∀ addr, t.mem.read addr = s.mem.read addr)

/-- R125: at an edge with `rst` asserted, in any phase and after any fault, the command word is ignored and every element owned by the block or the model takes its reset value, while the memory, the parameters and the rest of the schedule stay; and a reset is the only way out of a faulted state. -/
def Obligations.ResetEdgeRestoresEveryElement : Prop :=
  (∀ (s : State) (cw : Word) (rest : List DriverEvent), s.driver = .edge true cw :: rest →
    ∃ t, step s = .next t ∧
      t.pc = 0x0000 ∧ t.sp = 0x0000 ∧ t.mar = 0x0000 ∧ t.addrBus = 0x0000 ∧
      t.a = 0x00 ∧ t.sr = 0x00 ∧ t.ir = 0x00 ∧ t.mdr = 0x00 ∧ t.dataBus = 0x00 ∧
      t.rwb = .read ∧ t.phase = .idle ∧ t.trace = [] ∧ t.fault = none ∧
      t.mem = s.mem ∧ t.config = s.config ∧ t.driver = rest) ∧
  (∀ (s t : State) (f : Fault), s.fault = some f → step s = .next t →
    s.driver.any isReset = true ∧ t.fault = none ∧ t.phase = .idle)

/-- The fault record is none at reset; a step that raises records its fault; from then on no step is taken but a reset, and the reset returns the record to none. Derived from R33 and R118. That a raising step answers a next state, and that one step passes over every event before the next reset and is exactly that reset, are the model's choice (log 5); so is the result field after a reset (log 4). -/
def Obligations.FaultRecordHoldsUntilReset : Prop :=
  State.reset.fault = none ∧
  (∀ (s : State) (cw : Word) (rest : List DriverEvent) (f : Fault), s.fault = none →
    s.driver = .edge false cw :: rest → runCommand cw (s.withDriver rest) = .fault f →
    ∃ t, step s = .next t ∧ t.fault = some f) ∧
  (∀ (s : State) (rest : List DriverEvent) (f : Fault), s.fault = none →
    s.driver = .svc :: rest → serviceStep (s.withDriver rest) = .fault f →
    ∃ t, step s = .next t ∧ t.fault = some f) ∧
  (∀ (s : State) (f : Fault), s.fault = some f → s.driver.any isReset = false → step s = .fault f) ∧
  (∀ (s t : State) (f : Fault), s.fault = some f →
    (step s = .next t ↔ ∃ pre cw rest, s.driver = pre ++ .edge true cw :: rest ∧
      pre.any isReset = false ∧ t = (s.withDriver rest).blockReset)) ∧
  (∀ s : State, s.blockReset.fault = none)

/-- The step stops the machine exactly when a fault is recorded and no reset is to come, with that fault, and it never refuses. Derived from R33 and R116 and from log 5 (a raising step records its fault). -/
def Obligations.StepStopsOnlyOnARecordedFault : Prop :=
  (∀ (s : State) (f : Fault), step s = .fault f ↔ s.fault = some f ∧ s.driver.any isReset = false) ∧
  (∀ (s : State) (r : Refusal), step s ≠ .refused r)

/-- R117: the priority of the five conditions. That a raised fault is recorded in a next state is the model's form (log 5), and the result field after a reset is the model's own (log 4). -/
def Obligations.StepFollowsFaultPriority : Prop :=
  (∀ (s : State) (cw : Word) (rest : List DriverEvent), s.driver = .edge true cw :: rest →
    step s = .next (s.withDriver rest).blockReset) ∧
  (∀ (s : State) (f : Fault), s.fault = some f → s.driver.any isReset = false → step s = .fault f) ∧
  (∀ (s : State) (cw : Word) (rest : List DriverEvent), s.fault = none → s.driver = .edge false cw :: rest →
    (∀ i, decode cw ≠ .ok i) →
    ∃ t, step s = .next t ∧ t.fault = some (.illegalCommand cw)) ∧
  (∀ (s : State) (cw : Word) (rest : List DriverEvent) (i : Instr) (op : BusOp), s.fault = none →
    s.driver = .edge false cw :: rest → decode cw = .ok i → cycleOp i = some op → s.phase ≠ phaseOf op →
    ∃ t, step s = .next t ∧ t.fault = some (.protocolViolation op s.phase)) ∧
  (∀ (s : State) (rest : List DriverEvent), s.fault = none → s.driver = .svc :: rest → s.phase ≠ .asserted →
    ∃ t, step s = .next t ∧ t.fault = some (.protocolViolation .service s.phase)) ∧
  (∀ (s : State) (rest : List DriverEvent), s.fault = none → s.driver = .svc :: rest → s.phase = .asserted →
    s.rwb = .read → s.mem.read s.addrBus = none → s.config.absentRead = .fatal →
    ∃ t, step s = .next t ∧ t.fault = some (.absentRead s.addrBus))

/-- R110: a reserved word writes no state element, records `IllegalCommand(cw)`, and the run ends (unless the driver goes on to a reset). The result field at none is the model's own (log 4). -/
def Obligations.IllegalCommandWritesNothing : Prop :=
  ∀ (s : State) (cw : Word) (rest : List DriverEvent), s.fault = none → s.driver = .edge false cw :: rest →
    (∀ r ∈ opcodeRows, cw &&& r.mask ≠ r.matchBits) →
    step s = .next { s with driver := rest, result := none, fault := some (.illegalCommand cw) } ∧
    (rest.any isReset = false → runSteps 2 s = .fault (.illegalCommand cw))

/-- R111: SETUP, SERVICE, SVC or COMPLETE in the wrong phase writes no state element, records `ProtocolViolation(op, phase)`, and the run ends (unless the driver goes on to a reset). The result field at none is the model's own (log 4). -/
def Obligations.ProtocolViolationWritesNothing : Prop :=
  (∀ (s : State) (i : Instr) (op : BusOp) (rest : List DriverEvent), s.fault = none →
    s.driver = .edge false (encode i) :: rest → cycleOp i = some op → s.phase ≠ phaseOf op →
    step s = .next { s with driver := rest, result := none, fault := some (.protocolViolation op s.phase) } ∧
    (rest.any isReset = false → runSteps 2 s = .fault (.protocolViolation op s.phase))) ∧
  (∀ (s : State) (rest : List DriverEvent), s.fault = none → s.driver = .svc :: rest → s.phase ≠ .asserted →
    step s = .next { s with driver := rest, result := none, fault := some (.protocolViolation .service s.phase) } ∧
    (rest.any isReset = false → runSteps 2 s = .fault (.protocolViolation .service s.phase)))

/-- R112: SVC in a READ cycle that finds nothing under `fatal` writes no state element, records `AbsentRead(addr)`, and the run ends; under `fill(b)` it cannot occur, nor on a machine with the reference `SetupSource`. The result field at none is the model's own (log 4). -/
def Obligations.AbsentReadWritesNothing : Prop :=
  (∀ (s : State) (rest : List DriverEvent), s.fault = none → s.driver = .svc :: rest → s.phase = .asserted →
    s.rwb = .read → s.mem.read s.addrBus = none → s.config.absentRead = .fatal →
    step s = .next { s with driver := rest, result := none, fault := some (.absentRead s.addrBus) } ∧
    (rest.any isReset = false → runSteps 2 s = .fault (.absentRead s.addrBus))) ∧
  (∀ (s : State) (b : Data) (addr : Address), s.config.absentRead = .fill b →
    serviceStep s ≠ .fault (.absentRead addr)) ∧
  (∀ (s : State) (addr : Address), ReferenceInv s → serviceStep s ≠ .fault (.absentRead addr))

/-- R109: the complete list of what can raise, and what it raises: a meaning only `ProtocolViolation` of a bus-cycle operation in another phase; a command word also `IllegalCommand`, when it is reserved; the service step `ProtocolViolation` or `AbsentRead`. Nothing is refused. -/
def Obligations.OnlyTheListedFaultsAreRaised : Prop :=
  (∀ (i : Instr) (s : State) (f : Fault), exec i s = .fault f ↔
    ∃ op, cycleOp i = some op ∧ s.phase ≠ phaseOf op ∧ f = .protocolViolation op s.phase) ∧
  (∀ (i : Instr) (s : State) (r : Refusal), exec i s ≠ .refused r) ∧
  (∀ (cw : Word) (s : State) (f : Fault), runCommand cw s = .fault f ↔
    ((∀ i, decode cw ≠ .ok i) ∧ f = .illegalCommand cw) ∨ (∃ i, decode cw = .ok i ∧ exec i s = .fault f)) ∧
  (∀ (s : State) (f : Fault), serviceStep s = .fault f ↔
    (s.phase ≠ .asserted ∧ f = .protocolViolation .service s.phase) ∨
    (s.phase = .asserted ∧ s.rwb = .read ∧ s.mem.read s.addrBus = none ∧ s.config.absentRead = .fatal ∧
      f = .absentRead s.addrBus))

/-! ## Command words -/

/-- Decode and encode agree on every operation, with every operand at every value (R60, R62, R63, R65, R67). -/
def Obligations.DecodeOfEncodeIsTheOperation : Prop :=
  ∀ i : Instr, i.WellFormed → decode (encode i) = .ok i

/-- Each legal command word has one meaning: encoding what it decodes to gives the word back, so no bit of a legal word is ignored (R61). -/
def Obligations.EncodeOfDecodeIsTheWord : Prop :=
  ∀ (cw : Word) (i : Instr), decode cw = .ok i → encode i = cw

/-- R62: the decoder and the operation map agree. A word decodes to an operation exactly when some row has `cw & mask == match`, the operation is the row's with the operand fields the word's `op`, `sel` and `imm8` columns give, the rows are disjoint, and 533 words are legal. -/
def Obligations.DecoderFollowsTheOperationMap : Prop :=
  (∀ (cw : Word) (i : Instr), decode cw = .ok i →
    fieldsOf cw = i.fields ∧ ∃ r ∈ opcodeRows, cw &&& r.mask = r.matchBits ∧ r.mnemonic = i.mnemonic) ∧
  (∀ (cw : Word) (r : OpcodeRow), r ∈ opcodeRows → cw &&& r.mask = r.matchBits →
    ∃ i, decode cw = .ok i ∧ i.mnemonic = r.mnemonic) ∧
  (∀ (cw : Word) (r r' : OpcodeRow), r ∈ opcodeRows → r' ∈ opcodeRows →
    cw &&& r.mask = r.matchBits → cw &&& r'.mask = r'.matchBits → r = r') ∧
  (∃ legal : List Word, legal.Nodup ∧ legal.length = 533 ∧ ∀ cw, cw ∈ legal ↔ ∃ i, decode cw = .ok i)

/-- The decoder accepts exactly the words whose fields pass the checks of WellFormed (R61). -/
def Obligations.DecoderAcceptsExactlyTheLegalWords : Prop :=
  ∀ cw : Word, (∃ i, decode cw = .ok i) ↔ (fieldsOf cw).legal = true

/-- R70: the reserved words are exactly the cases (a) to (f), they are those that match no row of R62, there are 65003 of them, and each raises `IllegalCommand(cw)` in every state. -/
def Obligations.ReservedWordsAreTheSixCases : Prop :=
  (∀ cw : Word,
    let op := (fieldsOf cw).op
    let sel := (fieldsOf cw).sel
    let imm8 := (fieldsOf cw).imm8
    ((∃ e, decode cw = .error e) ↔
      9 ≤ op.toNat ∨
      ((op = 0 ∨ op = 5 ∨ op = 7) ∧ (sel ≠ 0 ∨ imm8 ≠ 0)) ∨
      ((op = 1 ∨ op = 2) ∧ (sel.extractLsb' 1 3 ≠ 0 ∨ imm8 ≠ 0)) ∨
      (op = 3 ∧ (sel.extractLsb' 1 3 ≠ 0 ∨ imm8.extractLsb' 1 7 ≠ 0)) ∨
      ((op = 4 ∨ op = 6) ∧ sel ≠ 0) ∨
      (op = 8 ∧ (10 ≤ sel.toNat ∨ imm8 ≠ 0))) ∧
    ((∃ e, decode cw = .error e) ↔ ∀ r ∈ opcodeRows, cw &&& r.mask ≠ r.matchBits)) ∧
  (∃ reserved : List Word, reserved.Nodup ∧ reserved.length = 65003 ∧
    ∀ cw, cw ∈ reserved ↔ ∃ e, decode cw = .error e) ∧
  (∀ (cw : Word) (e : ReservedWord) (s : State), decode cw = .error e →
    runCommand cw s = .fault (.illegalCommand cw))

/-- The worked encodings of R75, each word written out as R75 gives it, and its reserved examples. -/
def Obligations.WorkedEncodingsDecode : Prop :=
  decode 0x0000 = .ok .nop ∧ decode 0x1000 = .ok (.tomask .zro) ∧ decode 0x1100 = .ok (.tomask .neg) ∧
  decode 0x2000 = .ok (.getf .zro) ∧ decode 0x2100 = .ok (.getf .neg) ∧
  decode 0x3000 = .ok (.setf .zro false) ∧ decode 0x3001 = .ok (.setf .zro true) ∧
  decode 0x3100 = .ok (.setf .neg false) ∧ decode 0x3101 = .ok (.setf .neg true) ∧
  decode 0x4000 = .ok (.seta 0) ∧ decode 0x402A = .ok (.seta 42) ∧
  decode 0x4080 = .ok (.seta 128) ∧ decode 0x40FF = .ok (.seta 255) ∧
  decode 0x5000 = .ok .setup ∧ decode 0x6000 = .ok (.service 0) ∧ decode 0x602A = .ok (.service 42) ∧
  decode 0x7000 = .ok .complete ∧
  decode 0x8000 = .ok .rdregPc ∧ decode 0x8100 = .ok .rdregSp ∧ decode 0x8200 = .ok .rdregA ∧
  decode 0x8300 = .ok .rdregSr ∧ decode 0x8400 = .ok .rdregIr ∧ decode 0x8500 = .ok .rdregMar ∧
  decode 0x8600 = .ok .rdregMdr ∧ decode 0x8700 = .ok .rdregAddrBus ∧
  decode 0x8800 = .ok .rdregDataBus ∧ decode 0x8900 = .ok .rdregRwb ∧
  (∀ cw ∈ [0x0001#16, 0x1200#16, 0x2001#16, 0x3002#16, 0x3201#16, 0x4100#16, 0x5001#16, 0x6100#16,
      0x7100#16, 0x8A00#16, 0x8001#16, 0x9000#16, 0xFFFF#16], ∃ e, decode cw = .error e)

/-! ## The step and the operations -/

/-- A step runs the decoded operation: when the driver's next event is a command word that decodes to `i`, and no fault is recorded, the step is `exec i` of the state with that event taken; what `exec` raises is recorded (log 5). The second clause says the same of the word the encoder writes. -/
def Obligations.StepRunsTheDecodedOperation : Prop :=
  (∀ (s : State) (cw : Word) (rest : List DriverEvent) (i : Instr), s.fault = none →
    s.driver = .edge false cw :: rest → decode cw = .ok i →
    (∀ t, exec i (s.withDriver rest) = .next t → step s = .next t) ∧
    (∀ f, exec i (s.withDriver rest) = .fault f → step s = .next ((s.withDriver rest).raise f))) ∧
  (∀ (s : State) (rest : List DriverEvent) (i : Instr), s.fault = none → i.WellFormed →
    s.driver = .edge false (encode i) :: rest →
    (∀ t, exec i (s.withDriver rest) = .next t → step s = .next t) ∧
    (∀ f, exec i (s.withDriver rest) = .fault f → step s = .next ((s.withDriver rest).raise f)))

/-- The other events: SVC is the service step of the state with the event taken (R100), and with no event issued the block holds its state (R143; the model's choice, log 1). -/
def Obligations.StepOfServiceAndOfNoEvent : Prop :=
  (∀ (s : State) (rest : List DriverEvent), s.fault = none → s.driver = .svc :: rest →
    (∀ t, serviceStep (s.withDriver rest) = .next t → step s = .next t) ∧
    (∀ f, serviceStep (s.withDriver rest) = .fault f → step s = .next ((s.withDriver rest).raise f))) ∧
  (∀ s : State, s.fault = none → s.driver = [] → step s = .next s)

/-- An opcode-table word placed as the next command is run as what the decoder reads from it, from every state (the model's own interface, log 1). -/
def Obligations.TableWordIsTheNextCommand : Prop :=
  ∀ (s : State) (nbits w : Nat) (i : Instr), decodeTableWord nbits w = some i →
    ∀ t, exec i { s with fault := none } = .next t → step (s.withFetchWord nbits w) = .next t

/-- R90: NOP in any state and any phase completes and leaves the state as it is; nothing is returned. -/
def Obligations.NopLeavesTheState : Prop :=
  (∀ cw : Word, decode cw = .ok .nop ↔ cw &&& 0xFFFF = 0x0000) ∧ ∀ s : State, exec .nop s = .next { s with result := none }

/-- R78: TOMASK returns the flag's fixed mask, the same in every state, and writes no state. -/
def Obligations.TomaskReturnsTheMask : Prop :=
  decode 0x1000 = .ok (.tomask .zro) ∧ decode 0x1100 = .ok (.tomask .neg) ∧
  (∀ cw : Word, (∃ f, decode cw = .ok (.tomask f)) ↔ cw &&& 0xFEFF = 0x1000) ∧
  ∀ s : State,
    (∃ t, exec (.tomask .zro) s = .next t ∧ t = { s with result := t.result } ∧
      t.pins.result = 0x0002 ∧ t.pins.resultValid = true) ∧
    (∃ t, exec (.tomask .neg) s = .next t ∧ t = { s with result := t.result } ∧
      t.pins.result = 0x0080 ∧ t.pins.resultValid = true)

/-- R79: GETF returns its one bit of `sr`, bit 1 for ZRO and bit 7 for NEG, as 0x0001 or 0x0000, and writes no state; the reserved bits never matter. -/
def Obligations.GetfReturnsTheFlagBit : Prop :=
  decode 0x2000 = .ok (.getf .zro) ∧ decode 0x2100 = .ok (.getf .neg) ∧
  (∀ cw : Word, (∃ f, decode cw = .ok (.getf f)) ↔ cw &&& 0xFEFF = 0x2000) ∧
  ∀ s : State,
    (∃ t, exec (.getf .zro) s = .next t ∧ t = { s with result := t.result } ∧
      t.pins.result = (if s.sr.getLsbD 1 then 0x0001 else 0x0000) ∧ t.pins.resultValid = true) ∧
    (∃ t, exec (.getf .neg) s = .next t ∧ t = { s with result := t.result } ∧
      t.pins.result = (if s.sr.getLsbD 7 then 0x0001 else 0x0000) ∧ t.pins.resultValid = true)

/-- R80: SETF ORs the flag's mask into `sr` or ANDs its complement, in every state, and writes nothing else. -/
def Obligations.SetfWritesOneFlag : Prop :=
  decode 0x3000 = .ok (.setf .zro false) ∧ decode 0x3001 = .ok (.setf .zro true) ∧
  decode 0x3100 = .ok (.setf .neg false) ∧ decode 0x3101 = .ok (.setf .neg true) ∧
  (∀ cw : Word, (∃ f v, decode cw = .ok (.setf f v)) ↔ cw &&& 0xFEFE = 0x3000) ∧
  ∀ s : State,
    exec (.setf .zro true) s = .next { s with sr := s.sr ||| 0x02, result := none } ∧
    exec (.setf .zro false) s = .next { s with sr := s.sr &&& 0xFD, result := none } ∧
    exec (.setf .neg true) s = .next { s with sr := s.sr ||| 0x80, result := none } ∧
    exec (.setf .neg false) s = .next { s with sr := s.sr &&& 0x7F, result := none }

/-- R86: SETA loads the byte, sets ZRO to "it is zero" and NEG to its bit 7, keeps the reserved bits of `sr`, and writes nothing else, for every byte in every state. -/
def Obligations.SetaLoadsAndSetsFlags : Prop :=
  (∀ (cw : Word) (x : Data), decode cw = .ok (.seta x) ↔ cw &&& 0xFF00 = 0x4000 ∧ cw.setWidth 8 = x) ∧
  ∀ (x : Data) (s : State), ∃ t, exec (.seta x) s = .next t ∧
    t = { s with a := x, sr := t.sr, result := none } ∧
    t.sr.getLsbD 1 = (x == 0x00) ∧ t.sr.getLsbD 7 = x.getLsbD 7 ∧
    (∀ n, n ≠ 1 → n ≠ 7 → t.sr.getLsbD n = s.sr.getLsbD n)

/-- R88: each RDREG returns its element zero-extended (`rwb` as 1 for READ, 0 for WRITE) and writes no state, in every phase; and in every state that meets the invariant of the registers, `pc`, `sp`, `ir`, `mar` and `mdr` read as zero. -/
def Obligations.RdregReturnsTheElement : Prop :=
  (∀ (cw : Word) (n : Nat) (i : Instr),
    [Instr.rdregPc, .rdregSp, .rdregA, .rdregSr, .rdregIr, .rdregMar, .rdregMdr, .rdregAddrBus,
      .rdregDataBus, .rdregRwb][n]? = some i →
    (decode cw = .ok i ↔ cw &&& 0xFFFF = BitVec.ofNat 16 (0x8000 + n * 0x0100))) ∧
  (∀ s : State, ∀ p ∈ [(Instr.rdregPc, s.pc), (.rdregSp, s.sp), (.rdregA, s.a.setWidth 16),
      (.rdregSr, s.sr.setWidth 16), (.rdregIr, s.ir.setWidth 16), (.rdregMar, s.mar),
      (.rdregMdr, s.mdr.setWidth 16), (.rdregAddrBus, s.addrBus), (.rdregDataBus, s.dataBus.setWidth 16),
      (.rdregRwb, if s.rwb = .read then 0x0001#16 else 0x0000#16)],
    ∃ t, exec p.1 s = .next t ∧ t = { s with result := t.result } ∧
      t.pins.result = p.2 ∧ t.pins.resultValid = true) ∧
  (∀ s t : State, RegisterInv s →
    ∀ i ∈ [Instr.rdregPc, .rdregSp, .rdregIr, .rdregMar, .rdregMdr], exec i s = .next t → t.pins.result = 0)

/-- R98: in phase IDLE, SETUP drives what `SetupSource` returns, address, data and direction in that order, logs the three events, and enters ASSERTED, writing nothing else; with the reference source the triple is (0x00FF, 0x2A, WRITE) whatever the state; in any other phase it raises `ProtocolViolation(SETUP, phase)`. -/
def Obligations.SetupAssertsTheTransaction : Prop :=
  (∀ cw : Word, decode cw = .ok .setup ↔ cw &&& 0xFFFF = 0x5000) ∧
  (∀ s : State, s.phase = .idle →
    exec .setup s = .next
      { s with
        addrBus := (driveOf s.config.setupSource s.view).addr
        dataBus := (driveOf s.config.setupSource s.view).data
        rwb := (driveOf s.config.setupSource s.view).mode
        phase := .asserted
        trace := s.trace ++ [.driveAddr (driveOf s.config.setupSource s.view).addr,
          .driveData (driveOf s.config.setupSource s.view).data,
          .driveMode (driveOf s.config.setupSource s.view).mode]
        result := none }) ∧
  (∀ s : State, s.phase = .idle → s.config.setupSource = referenceConfig.setupSource →
    ∃ t, exec .setup s = .next t ∧ t.addrBus = 0x00FF ∧ t.dataBus = 0x2A ∧ t.rwb = .write) ∧
  (∀ s : State, s.phase ≠ .idle → exec .setup s = .fault (.protocolViolation .setup s.phase))

/-- R99: in phase ASSERTED, SERVICE on READ puts its byte on `data_bus` with one event, on WRITE ignores it, and enters SERVICED, writing nothing else; in any other phase it raises `ProtocolViolation(SERVICE, phase)`. -/
def Obligations.ServiceTakesTheByte : Prop :=
  (∀ (cw : Word) (b : Data), decode cw = .ok (.service b) ↔ cw &&& 0xFF00 = 0x6000 ∧ cw.setWidth 8 = b) ∧
  (∀ (b : Data) (s : State), s.phase = .asserted → s.rwb = .read →
    exec (.service b) s = .next
      { s with dataBus := b, phase := .serviced, trace := s.trace ++ [.driveData b], result := none }) ∧
  (∀ (b : Data) (s : State), s.phase = .asserted → s.rwb = .write →
    exec (.service b) s = .next { s with phase := .serviced, result := none }) ∧
  (∀ (b : Data) (s : State), s.phase ≠ .asserted →
    exec (.service b) s = .fault (.protocolViolation .service s.phase))

/-- R102: in phase SERVICED, COMPLETE loads `data_bus` into the accumulator in both directions, with the flags of that byte, and enters IDLE, writing nothing else; in any other phase it raises `ProtocolViolation(COMPLETE, phase)`. -/
def Obligations.CompleteLoadsTheDataBus : Prop :=
  (∀ cw : Word, decode cw = .ok .complete ↔ cw &&& 0xFFFF = 0x7000) ∧
  (∀ s : State, s.phase = .serviced → ∃ t, exec .complete s = .next t ∧
    t = { s with a := s.dataBus, sr := t.sr, phase := .idle, result := none } ∧
    t.sr.getLsbD 1 = (s.dataBus == 0x00) ∧ t.sr.getLsbD 7 = s.dataBus.getLsbD 7 ∧
    (∀ n, n ≠ 1 → n ≠ 7 → t.sr.getLsbD n = s.sr.getLsbD n) ∧ Coupled t) ∧
  (∀ s : State, s.phase ≠ .serviced → exec .complete s = .fault (.protocolViolation .complete s.phase))

/-- R100: the service step. On WRITE it stores `data_bus` at `addr_bus`, every other address reading as before; on READ it hands what memory holds to the block, or what `fill` supplies without writing memory; under `fatal` an absent byte raises `AbsentRead`; out of phase it raises `ProtocolViolation`. Nothing else is written. -/
def Obligations.ServiceStepMakesTheOneAccess : Prop :=
  (∀ s : State, s.phase = .asserted → s.rwb = .write → ∃ t, serviceStep s = .next t ∧
    t = { s with mem := t.mem, phase := .serviced, result := none } ∧
    ∀ addr, t.mem.read addr = if addr = s.addrBus then some s.dataBus else s.mem.read addr) ∧
  (∀ (s : State) (b : Data), s.phase = .asserted → s.rwb = .read → s.mem.read s.addrBus = some b →
    serviceStep s = .next
      { s with dataBus := b, phase := .serviced, trace := s.trace ++ [.driveData b], result := none }) ∧
  (∀ (s : State) (b : Data), s.phase = .asserted → s.rwb = .read → s.mem.read s.addrBus = none →
    s.config.absentRead = .fill b → serviceStep s = .next
      { s with dataBus := b, phase := .serviced, trace := s.trace ++ [.driveData b], result := none }) ∧
  (∀ s : State, s.phase = .asserted → s.rwb = .read → s.mem.read s.addrBus = none →
    s.config.absentRead = .fatal → serviceStep s = .fault (.absentRead s.addrBus)) ∧
  (∀ s : State, s.phase ≠ .asserted → serviceStep s = .fault (.protocolViolation .service s.phase))

/-! ## Flags and the accumulator -/

/-- R81: after any sequence of SETF on one flag, all seven other bits of `sr` are unchanged, and GETF of the other flag returns what it returned before. -/
def Obligations.FlagIsolation : Prop :=
  ∀ (s : State) (f g : StatusFlag) (vs : List Bool), f ≠ g →
    ∃ t, execAll (vs.map (Instr.setf f)) s = .next t ∧
      t.sr &&& ~~~mask f = s.sr &&& ~~~mask f ∧
      ∃ u w, exec (.getf g) t = .next u ∧ exec (.getf g) s = .next w ∧ u.result = w.result

/-- R82: GETF immediately after SETF f, v returns v, for every state, flag and boolean. -/
def Obligations.FlagRoundTrip : Prop :=
  ∀ (s : State) (f : StatusFlag) (v : Bool),
    ∃ t u, exec (.setf f v) s = .next t ∧ exec (.getf f) t = .next u ∧ u.result = some (.flag v)

/-- The laws of R83, marked there as derived from R80: idempotence, last write wins, commutation across flags, and the closed form of two writes. -/
def Obligations.SetfLaws : Prop :=
  ∀ (s : State) (f : StatusFlag) (v w z n : Bool),
    execAll [.setf f v, .setf f v] s = execAll [.setf f v] s ∧
    execAll [.setf f v, .setf f w] s = execAll [.setf f w] s ∧
    execAll [.setf .zro z, .setf .neg n] s = execAll [.setf .neg n, .setf .zro z] s ∧
    execAll [.setf .zro z, .setf .neg n] s = .next
      { s with
        sr := (s.sr &&& 0x7D) ||| (if z then 0x02 else 0x00) ||| (if n then 0x80 else 0x00)
        result := none }

/-- The closed form of the accumulator load, marked in R85 as derived: `sr' = (sr & 0x7D) | (value == 0 ? 0x02 : 0) | (value & 0x80)`, for SETA and for COMPLETE. -/
def Obligations.AccumulatorLoadClosedForm : Prop :=
  (∀ (x : Data) (s : State), exec (.seta x) s = .next
    { s with
      a := x
      sr := (s.sr &&& 0x7D) ||| (if x = 0x00 then 0x02 else 0x00) ||| (x &&& 0x80)
      result := none }) ∧
  (∀ s : State, s.phase = .serviced → exec .complete s = .next
    { s with
      a := s.dataBus
      sr := (s.sr &&& 0x7D) ||| (if s.dataBus = 0x00 then 0x02 else 0x00) ||| (s.dataBus &&& 0x80)
      phase := .idle
      result := none })

/-- R87: after SETA x, from every start state, GETF ZRO returns `x == 0` and GETF NEG returns `x >= 128`; over the 256 bytes ZRO is 1 for one, NEG for 128, neither for 127, both for none. -/
def Obligations.AccumulatorFlagCouplingLaw : Prop :=
  (∀ (s : State) (x : Data), ∃ t u w, exec (.seta x) s = .next t ∧
    exec (.getf .zro) t = .next u ∧ u.result = some (.flag (x == 0)) ∧
    exec (.getf .neg) t = .next w ∧ w.result = some (.flag (decide (128 ≤ x.toNat)))) ∧
  ((List.range 256).filter (fun n => zroOf (BitVec.ofNat 8 n))).length = 1 ∧
  ((List.range 256).filter (fun n => negOf (BitVec.ofNat 8 n))).length = 128 ∧
  ((List.range 256).filter (fun n => !zroOf (BitVec.ofNat 8 n) && !negOf (BitVec.ofNat 8 n))).length = 127 ∧
  ((List.range 256).filter (fun n => zroOf (BitVec.ofNat 8 n) && negOf (BitVec.ofNat 8 n))).length = 0

/-- Where `Coupled` (R26) holds: after every SETA and COMPLETE; kept, true or false, by the operations that write neither `a` nor `sr`; false at reset; and from a coupled state a SETF breaks it exactly when it changes a bit (R133). Derived: R26 (c) says the reset state stays uncoupled until the first SETA or COMPLETE, which leaves SETF out of account. -/
def Obligations.CouplingHoldsAfterLoads : Prop :=
  (∀ (s t : State) (x : Data), exec (.seta x) s = .next t → Coupled t) ∧
  (∀ s t : State, exec .complete s = .next t → Coupled t) ∧
  (∀ (i : Instr) (s t : State), exec i s = .next t →
    (∀ f v, i ≠ .setf f v) → (∀ x, i ≠ .seta x) → i ≠ .complete → (Coupled t ↔ Coupled s)) ∧
  ¬Coupled State.reset ∧
  (∀ (s t : State) (f : StatusFlag) (v : Bool), Coupled s → exec (.setf f v) s = .next t →
    (Coupled t ↔ t.sr = s.sr))

/-- R89: from reset, SETA 0, SETA 128, SETA 0 give `sr` = 0x02, 0x80, 0x02 with `a` = 0x00, 0x80, 0x00. -/
def Obligations.FlagTransitionScenario : Prop :=
  ∃ t u w, exec (.seta 0) State.reset = .next t ∧ t.a = 0x00 ∧ t.sr = 0x02 ∧
    exec (.seta 128) t = .next u ∧ u.a = 0x80 ∧ u.sr = 0x80 ∧
    exec (.seta 0) u = .next w ∧ w.a = 0x00 ∧ w.sr = 0x02

/-- The values of `sr` that runs reach are exactly 0x00, 0x02, 0x80 and 0x82 (R25, marked there as derived from R36 and R80). -/
def Obligations.ReachableStatusBytes : Prop :=
  ∀ v : Flags, (∃ t, Reachable t ∧ t.sr = v) ↔ v = 0x00 ∨ v = 0x02 ∨ v = 0x80 ∨ v = 0x82

/-! ## What an operation leaves unchanged -/

/-- The frame of every operation, the access table of R21 (marked there as derived): where `exec` gives a next state, no operation writes `pc`, `sp`, `ir`, `mar`, `mdr`, the memory (every byte reads as before), the fault record, the parameters or the schedule; `a` only SETA and COMPLETE; `sr` only SETF, SETA and COMPLETE, never a reserved bit, and SETF not the other flag's; `addr_bus` and `rwb` only SETUP; `data_bus` only SETUP and a READ SERVICE; `phase` only the three bus operations; the trace only SETUP and a READ SERVICE. -/
def Obligations.OperationsWriteOnlyTheirElements : Prop :=
  ∀ (i : Instr) (s t : State), exec i s = .next t →
    t.pc = s.pc ∧ t.sp = s.sp ∧ t.ir = s.ir ∧ t.mar = s.mar ∧ t.mdr = s.mdr ∧
    (∀ addr, t.mem.read addr = s.mem.read addr) ∧ t.mem = s.mem ∧
    t.fault = s.fault ∧ t.config = s.config ∧ t.driver = s.driver ∧
    t.sr &&& 0x7D#8 = s.sr &&& 0x7D#8 ∧
    ((∀ x, i ≠ .seta x) → i ≠ .complete → t.a = s.a) ∧
    ((∀ f v, i ≠ .setf f v) → (∀ x, i ≠ .seta x) → i ≠ .complete → t.sr = s.sr) ∧
    (∀ f g v, i = .setf f v → f ≠ g → getFlag t.sr g = getFlag s.sr g) ∧
    (i ≠ .setup → t.addrBus = s.addrBus ∧ t.rwb = s.rwb) ∧
    (i ≠ .setup → ((∀ b, i ≠ .service b) ∨ s.rwb = .write) → t.dataBus = s.dataBus ∧ t.trace = s.trace) ∧
    (cycleOp i = none → t.phase = s.phase)

/-- The frame of a step: the parameters never change; memory changes only by a service step of a WRITE cycle, only at `addr_bus`, to the byte on `data_bus` (R41, R44); no step makes a written location absent again (R42). -/
def Obligations.OnlyAWriteServiceChangesMemory : Prop :=
  ∀ (s t : State), step s = .next t →
    t.config = s.config ∧
    (∀ addr, t.mem.read addr ≠ s.mem.read addr →
      s.fault = none ∧ s.driver.head? = some .svc ∧ s.phase = .asserted ∧ s.rwb = .write ∧
      addr = s.addrBus ∧ t.mem.read addr = some s.dataBus) ∧
    (∀ addr, s.mem.read addr ≠ none → t.mem.read addr ≠ none)

/-- R66: a command that goes on drives the result port: TOMASK, GETF and RDREG with `result_valid` = 1, every other with `result_valid` = 0 and `result` = 0x0000; the port carries 8-bit values zero-extended, a boolean and `rwb` as 0x0001 or 0x0000. -/
def Obligations.ResultPortIsDrivenByEveryCommand : Prop :=
  (∀ (i : Instr) (s t : State), exec i s = .next t →
    t.pins.resultValid = returnsValue i ∧ (returnsValue i = false → t.pins.result = 0x0000)) ∧
  (∀ v : Byte, (PortValue.mask v).bits.toNat = v.toNat ∧ (PortValue.byte v).bits.toNat = v.toNat) ∧
  (∀ v : Word, (PortValue.word v).bits = v) ∧
  (PortValue.flag true).bits = 0x0001 ∧ (PortValue.flag false).bits = 0x0000 ∧
  (PortValue.mode .read).bits = 0x0001 ∧ (PortValue.mode .write).bits = 0x0000

/-- NOP and the reading operations change nothing in the rest of a run: placed before any further operation, in any state and phase, they leave its outcome exactly what it was (R88 (a), R90). -/
def Obligations.ReadingOperationsDoNotDisturbARun : Prop :=
  ∀ (r : Instr) (is js : List Instr) (s : State), (r = .nop ∨ returnsValue r = true) → js ≠ [] →
    execAll (is ++ r :: js) s = execAll (is ++ js) s

/-- R32: the trace is empty at reset, only ever appended to by an operation or a service, and read by none: replacing it changes no step in anything but the trace. -/
def Obligations.TraceIsNeverRead : Prop :=
  State.reset.trace = [] ∧
  (∀ (i : Instr) (s t : State), exec i s = .next t → ∃ es, t.trace = s.trace ++ es) ∧
  (∀ s t : State, serviceStep s = .next t → ∃ es, t.trace = s.trace ++ es) ∧
  (∀ (s : State) (es : List BusEvent), agreeButTrace (step { s with trace := es }) (step s))

/-- The block never sees memory (R34: it "never calls into Memory directly"): what a command does, fault included, is the same whatever memory holds. -/
def Obligations.CommandsDoNotSeeMemory : Prop :=
  ∀ (i : Instr) (s : State) (m : Memory), agreeButMemory (exec i { s with mem := m }) (exec i s)

/-! ## The bus cycle -/

/-- R94: the transition table, and the legal command sequences: a machine in phase IDLE with no fault, whose driver issues any list of operations, ends it with no fault recorded exactly when its SETUP, SERVICE and COMPLETE commands, the others ignored, form a prefix of (SETUP SERVICE COMPLETE)*. -/
def Obligations.LegalSequencesArePrefixesOfTheCycle : Prop :=
  (∀ (i : Instr) (s : State), cycleOp i = none → ∃ t, exec i s = .next t ∧ t.phase = s.phase) ∧
  (∀ (i : Instr) (s : State) (op : BusOp), cycleOp i = some op →
    (s.phase = phaseOf op → ∃ t, exec i s = .next t ∧ t.phase = phaseAfter op) ∧
    (s.phase ≠ phaseOf op → exec i s = .fault (.protocolViolation op s.phase))) ∧
  (∀ (is : List Instr) (s : State), s.fault = none → s.phase = .idle → s.driver = commandsOf is →
    ((∃ t, runSteps is.length s = .next t ∧ t.fault = none) ↔ LegalOrder is))

/-- R97: SETUP contributes exactly three consecutive events, address, data, direction, and no other operation drives the address or the direction; so in every state that meets the invariant of the bus, each direction in the trace directly follows the address and the data of its cycle. -/
def Obligations.DirectionIsDrivenAfterAddressAndData : Prop :=
  (∀ s t : State, exec .setup s = .next t → ∃ ad dt md,
    t.trace = s.trace ++ [.driveAddr ad, .driveData dt, .driveMode md] ∧
    t.addrBus = ad ∧ t.dataBus = dt ∧ t.rwb = md) ∧
  (∀ (i : Instr) (s t : State), i ≠ .setup → exec i s = .next t →
    t.trace = s.trace ∨ ∃ b, t.trace = s.trace ++ [.driveData b]) ∧
  (∀ s : State, BusInv s → ∀ pre md post, s.trace = pre ++ .driveMode md :: post →
    ∃ pre' ad dt, pre = pre' ++ [.driveAddr ad, .driveData dt])

/-- R104: the WRITE cycle end to end: from phase IDLE with no fault, a driver that issues CYCLE with `SetupSource` answering (ad, dt, WRITE) stores dt at ad, every other address reading as before, and then loads the same byte into the accumulator with its flags. -/
def Obligations.WriteCycleStoresThenLoads : Prop :=
  ∀ (s : State) (rest : List DriverEvent), s.fault = none → s.phase = .idle →
    s.driver = cycleEvents ++ rest → (driveOf s.config.setupSource s.view).mode = .write →
    ∃ t, runSteps 3 s = .next t ∧
      (∀ addr, t.mem.read addr =
        if addr = (driveOf s.config.setupSource s.view).addr
        then some (driveOf s.config.setupSource s.view).data else s.mem.read addr) ∧
      t.a = (driveOf s.config.setupSource s.view).data ∧
      t.dataBus = (driveOf s.config.setupSource s.view).data ∧
      t.addrBus = (driveOf s.config.setupSource s.view).addr ∧ t.rwb = .write ∧
      t.sr.getLsbD 1 = ((driveOf s.config.setupSource s.view).data == 0x00) ∧
      t.sr.getLsbD 7 = (driveOf s.config.setupSource s.view).data.getLsbD 7 ∧
      Completed t ∧ t.driver = rest

/-- The READ cycle end to end (R105): with `SetupSource` answering READ, a byte memory holds, or `fill` supplies, goes through `data_bus` to the accumulator with its flags and memory is unchanged; under `fatal` an absent byte ends the cycle at the service with `AbsentRead`, the accumulator unchanged. -/
def Obligations.ReadCycleLoadsFromMemory : Prop :=
  ∀ (s : State) (rest : List DriverEvent), s.fault = none → s.phase = .idle →
    s.driver = cycleEvents ++ rest → (driveOf s.config.setupSource s.view).mode = .read →
    (∀ b, (s.mem.read (driveOf s.config.setupSource s.view).addr = some b ∨
        (s.mem.read (driveOf s.config.setupSource s.view).addr = none ∧ s.config.absentRead = .fill b)) →
      ∃ t, runSteps 3 s = .next t ∧ t.mem = s.mem ∧ t.a = b ∧ t.dataBus = b ∧
        t.addrBus = (driveOf s.config.setupSource s.view).addr ∧ t.rwb = .read ∧
        t.sr.getLsbD 1 = (b == 0x00) ∧ t.sr.getLsbD 7 = b.getLsbD 7 ∧ Completed t ∧ t.driver = rest) ∧
    (s.mem.read (driveOf s.config.setupSource s.view).addr = none → s.config.absentRead = .fatal →
      ∃ t, runSteps 2 s = .next t ∧
        t.fault = some (.absentRead (driveOf s.config.setupSource s.view).addr) ∧
        t.phase = .asserted ∧ t.a = s.a ∧ t.sr = s.sr ∧ t.mem = s.mem)

/-- Once a cycle is serviced, any number of operations other than SETUP, SERVICE and COMPLETE may follow, and the COMPLETE after them loads the byte that was on `data_bus` at service time, with its flags, whatever SETF or SETA were issued between (R102 (b), (d); R103). -/
def Obligations.CompletionLoadsTheServicedByte : Prop :=
  ∀ (is : List Instr) (s : State), s.phase = .serviced → (∀ i ∈ is, cycleOp i = none) →
    ∃ t, execAll (is ++ [.complete]) s = .next t ∧ t.a = s.dataBus ∧ t.dataBus = s.dataBus ∧
      t.phase = .idle ∧ Coupled t

/-- R106: the document's cycle scenario from the reset state, fresh memory and the reference parameters, step by step. -/
def Obligations.ReferenceCycleScenario : Prop :=
  ∃ t u w, step { State.reset with driver := cycleEvents } = .next t ∧
    t.addrBus = 0x00FF ∧ t.dataBus = 0x2A ∧ t.rwb = .write ∧
    step t = .next u ∧ u.mem.read 0x00FF = some 0x2A ∧
    step u = .next w ∧ w.a = 0x2A ∧ w.sr = 0x00 ∧ w.mem.read 0x00FF = some 0x2A

/-- Repeating the reference cycle any number of times gives the same end state but for the trace, which holds the three events of each (R106, marked there as derived). -/
def Obligations.RepeatedReferenceCyclesAgree : Prop :=
  ∀ n : Nat,
    runSteps (3 * (n + 1)) { State.reset with driver := (List.replicate (n + 1) cycleEvents).flatten } =
      .next { State.reset with
        a := 0x2A, sr := 0x00, addrBus := 0x00FF, dataBus := 0x2A, rwb := .write,
        mem := [(0x00FF, 0x2A)],
        trace := (List.replicate (n + 1)
          [BusEvent.driveAddr 0x00FF, .driveData 0x2A, .driveMode .write]).flatten }

/-! ## Memory and parameters -/

/-- R45: last write wins, and a write to one address does not change what a read of another returns. -/
def Obligations.MemoryWriteReadLaw : Prop :=
  (∀ (m : Memory) (addr : Address) (v1 v2 : Data),
    (m.write addr v1).read addr = some v1 ∧ ((m.write addr v1).write addr v2).read addr = some v2) ∧
  (∀ (m : Memory) (addr1 addr2 : Address) (v : Data), addr1 ≠ addr2 →
    (m.write addr1 v).read addr2 = m.read addr2)

/-- The canonical form of memory (the model's own choice, log 6): two canonical memories that read the same at every address are the same data. -/
def Obligations.CanonicalMemoriesAreEqualData : Prop :=
  ∀ m m' : Memory, m.wf = true → m'.wf = true → (∀ addr, m.read addr = m'.read addr) → m = m'

/-- What SETUP drives depends on the ten-tuple alone (R95): two idle states with the same parameters and the same tuple, whatever their memory, trace, schedule and result, assert the same transaction. -/
def Obligations.SetupSeesOnlyTheTuple : Prop :=
  ∀ s s' t t' : State, s.view = s'.view → s.config = s'.config →
    exec .setup s = .next t → exec .setup s' = .next t' →
    t.addrBus = t'.addrBus ∧ t.dataBus = t'.dataBus ∧ t.rwb = t'.rwb ∧ t.view = t'.view

/-- Every total function of the ten-tuple (R8, R95) is some `SetupSource` of the model, so quantifying over the parameter leaves none out (the model's form of the parameter, log 2). -/
def Obligations.SetupTablesExpressEveryFunction : Prop :=
  ∀ f : BlockView → BusDrive, ∃ src : SetupSource, ∀ v, driveOf src v = f v

/-! ## Invariants -/

/-- Every step keeps the invariant of the registers and the memory: the canonical form, the reserved bits of `sr` at zero (R25), and `pc`, `sp`, `ir`, `mar`, `mdr` at zero (R14, R15, R18 to R20). -/
def Obligations.StepKeepsRegisterInvariant : Prop :=
  ∀ s t : State, RegisterInv s → step s = .next t → RegisterInv t

/-- Every step keeps the invariant of the bus: the lines hold what was last driven (R96), and the trace is made of whole ordered setups (R97), each READ setup followed by at most one serviced byte. -/
def Obligations.StepKeepsBusInvariant : Prop :=
  ∀ s t : State, BusInv s → step s = .next t → BusInv t

/-- Every step keeps the meaning of the fault record: what it names was true of the state the raising step left unwritten (R110 to R112). -/
def Obligations.StepKeepsFaultInvariant : Prop :=
  ∀ s t : State, FaultInv s → step s = .next t → FaultInv t

/-- On a machine with the reference `SetupSource` every step keeps it that a cycle under way is a WRITE cycle and that no absent read is recorded (R105, marked there as derived). -/
def Obligations.ReferenceMachineNeverReads : Prop :=
  ∀ s t : State, ReferenceInv s → step s = .next t → ReferenceInv t

/-- The reset state, and every launch state with a canonical memory, meets the invariants (the last of them with the reference `SetupSource`). -/
def Obligations.LaunchStatesMeetTheInvariants : Prop :=
  RegisterInv State.reset ∧ BusInv State.reset ∧ FaultInv State.reset ∧ ReferenceInv State.reset ∧
  (∀ (mem : Memory) (config : Config) (driver : List DriverEvent), mem.wf = true →
    RegisterInv (State.launch mem config driver) ∧ BusInv (State.launch mem config driver) ∧
    FaultInv (State.launch mem config driver) ∧
    (config.setupSource = referenceConfig.setupSource → ReferenceInv (State.launch mem config driver)))
end

