-- ==== Sys2Proof/Laws/PerInstr.lean ====
section
/-! SUPPORT. Statements for all instructions, one lemma per constructor. -/

/-- FieldsAgree: the command word the encoder writes from the `match` column of R62 splits (R60) into the columns `op`, `sel`, `imm8` of R62, and these pass the checks of R61. -/
def Sys2Proof.Laws.FieldsAgree.Statement (i : Sys2Proof.Instr) : Prop :=
  Sys2Proof.fieldsOf (Sys2Proof.encode i) = i.fields ∧ i.WellFormed

namespace Sys2Proof.Laws.FieldsAgree

set_option maxRecDepth 8000 in
/-- The two byte-carrying words split as they should, for every byte. -/
theorem fieldsOf_byte : ∀ b : Data,
    fieldsOf (0x4000 ||| b.setWidth 16) = ⟨4, 0, b⟩ ∧ fieldsOf (0x6000 ||| b.setWidth 16) = ⟨6, 0, b⟩ := by
  decide

theorem nop : Statement .nop := ⟨by decide, by decide⟩
theorem tomask (f : StatusFlag) : Statement (.tomask f) := by cases f <;> exact ⟨by decide, by decide⟩
theorem getf (f : StatusFlag) : Statement (.getf f) := by cases f <;> exact ⟨by decide, by decide⟩
theorem setf (f : StatusFlag) (v : Bool) : Statement (.setf f v) := by cases f <;> cases v <;> exact ⟨by decide, by decide⟩
theorem seta (imm8 : Data) : Statement (.seta imm8) :=
  ⟨(fieldsOf_byte imm8).1, rfl⟩
theorem setup : Statement .setup := ⟨by decide, by decide⟩
theorem service (imm8 : Data) : Statement (.service imm8) :=
  ⟨(fieldsOf_byte imm8).2, rfl⟩
theorem complete : Statement .complete := ⟨by decide, by decide⟩
theorem rdregPc : Statement .rdregPc := ⟨by decide, by decide⟩
theorem rdregSp : Statement .rdregSp := ⟨by decide, by decide⟩
theorem rdregA : Statement .rdregA := ⟨by decide, by decide⟩
theorem rdregSr : Statement .rdregSr := ⟨by decide, by decide⟩
theorem rdregIr : Statement .rdregIr := ⟨by decide, by decide⟩
theorem rdregMar : Statement .rdregMar := ⟨by decide, by decide⟩
theorem rdregMdr : Statement .rdregMdr := ⟨by decide, by decide⟩
theorem rdregAddrBus : Statement .rdregAddrBus := ⟨by decide, by decide⟩
theorem rdregDataBus : Statement .rdregDataBus := ⟨by decide, by decide⟩
theorem rdregRwb : Statement .rdregRwb := ⟨by decide, by decide⟩

end Sys2Proof.Laws.FieldsAgree
end

