-- ==== Sys2Proof/Laws/Decode.lean ====
section
/-! SUPPORT. One lemma per decoding function, saying when it accepts and what it then gives; and that a word is its three fields. -/

namespace Sys2Proof

/-- A word is its fields put together (R60). -/
theorem fieldsOf_append (cw : Word) :
    (fieldsOf cw).op ++ (fieldsOf cw).sel ++ (fieldsOf cw).imm8 = cw := by
  simp only [fieldsOf]
  apply BitVec.eq_of_getLsbD_eq
  intro i hi
  simp only [BitVec.getLsbD_append, BitVec.getLsbD_extractLsb']
  by_cases h1 : i < 8
  · simp [h1]
  · by_cases h2 : i - 8 < 4
    · simp only [h1, h2, if_false, if_true, decide_true, Bool.true_and]; congr 1; omega
    · simp only [h1, h2, if_false, show i - 8 - 4 < 4 by omega, decide_true, Bool.true_and]; congr 1; omega

/-- The fields of three fields put together. -/
theorem fieldsOf_of_append (op sel : BitVec 4) (imm8 : BitVec 8) :
    fieldsOf (op ++ sel ++ imm8) = ⟨op, sel, imm8⟩ := by
  simp only [fieldsOf, CommandFields.mk.injEq]
  refine ⟨?_, ?_, ?_⟩ <;> apply BitVec.eq_of_getLsbD_eq <;> intro i hi <;>
    simp only [BitVec.getLsbD_append, BitVec.getLsbD_extractLsb', hi, decide_true, Bool.true_and]
  · simp only [show ¬ (12 + i < 8) by omega, show ¬ (12 + i - 8 < 4) by omega, if_false]
    congr 1; omega
  · simp only [show ¬ (8 + i < 8) by omega, show 8 + i - 8 < 4 by omega, if_false, if_true]
    congr 1; omega
  · simp [hi]

theorem fieldsOf_injective {cw cw' : Word} (h : fieldsOf cw = fieldsOf cw') : cw = cw' := by
  rw [← fieldsOf_append cw, ← fieldsOf_append cw', h]

theorem noSelect_ok {sel : BitVec 4} {j i : Instr} : noSelect sel j = .ok i ↔ sel = 0 ∧ j = i := by
  unfold noSelect; split <;> simp_all

theorem noImmediate_ok {imm8 : BitVec 8} {r : Except ReservedWord Instr} {i : Instr} :
    noImmediate imm8 r = .ok i ↔ imm8 = 0 ∧ r = .ok i := by
  unfold noImmediate; split
  · simp
  · split <;> simp_all

theorem flagSelect_ok : ∀ {sel : BitVec 4} {f : StatusFlag}, flagSelect sel = .ok f ↔ sel = f.sel := by
  have h : ∀ sel : BitVec 4, (flagSelect sel = .ok .zro ↔ sel = 0) ∧ (flagSelect sel = .ok .neg ↔ sel = 1) := by
    decide
  rintro sel (_ | _)
  · exact (h sel).1
  · exact (h sel).2

theorem withFlag_ok {sel : BitVec 4} {mk : StatusFlag → Instr} {i : Instr} :
    withFlag sel mk = .ok i ↔ ∃ f : StatusFlag, sel = f.sel ∧ mk f = i := by
  simp only [← flagSelect_ok]
  unfold withFlag; cases flagSelect sel <;> simp

theorem setfBoolean_ok {imm8 : BitVec 8} {sel : BitVec 4} {i : Instr} :
    setfBoolean imm8 (setfFlag sel) = .ok i ↔
      ∃ (f : StatusFlag) (v : Bool), sel = f.sel ∧ imm8 = (if v then 1 else 0) ∧ i = .setf f v := by
  have h0 : imm8 = 0 ↔ imm8.toNat = 0 := by rw [← BitVec.toNat_inj]; rfl
  have h1 : imm8 = 1 ↔ imm8.toNat = 1 := by rw [← BitVec.toNat_inj]; rfl
  simp only [← flagSelect_ok, Bool.exists_bool, if_true, Bool.false_eq_true, if_false, h0, h1]
  unfold setfBoolean setfFlag
  cases flagSelect sel with
  | error e => simp
  | ok f =>
    simp only [Except.ok.injEq, exists_eq_left', exists_or, eq_comm (a := i)]
    split <;> simp_all

theorem registerSelect_ok : ∀ {sel : BitVec 4} {i : Instr},
    registerSelect sel = .ok i ↔ i.fields = ⟨8, sel, 0⟩ := by
  intro sel i
  constructor
  · intro hi
    unfold registerSelect at hi
    split at hi <;> first | (cases hi; rename_i hs; simp only [Instr.fields, CommandFields.mk.injEq, true_and, and_true]; rw [← BitVec.toNat_inj, hs]; rfl) | simp at hi
  · intro hi
    cases i <;> simp only [Instr.fields, CommandFields.mk.injEq, and_true, true_and] at hi <;>
      first | (subst hi; rfl) | (exact absurd hi.1 (by decide))

/-- What the decoder accepts, it reads back as the operation's own fields. -/
theorem decodeFields_ok {c : CommandFields} {i : Instr} (h : decodeFields c = .ok i) : c = i.fields := by
  obtain ⟨op, sel, imm8⟩ := c
  have hop : ∀ n : Nat, op.toNat = n → op = BitVec.ofNat 4 n := by rintro n rfl; simp
  unfold decodeFields at h
  split at h <;> rename_i hn <;> try (have := hop _ hn; subst this)
  · obtain ⟨rfl, h⟩ := noImmediate_ok.1 h; obtain ⟨rfl, rfl⟩ := noSelect_ok.1 h; rfl
  · obtain ⟨rfl, h⟩ := noImmediate_ok.1 h; obtain ⟨f, rfl, rfl⟩ := withFlag_ok.1 h; rfl
  · obtain ⟨rfl, h⟩ := noImmediate_ok.1 h; obtain ⟨f, rfl, rfl⟩ := withFlag_ok.1 h; rfl
  · obtain ⟨f, v, rfl, rfl, rfl⟩ := setfBoolean_ok.1 h; rfl
  · obtain ⟨rfl, rfl⟩ := noSelect_ok.1 h; rfl
  · obtain ⟨rfl, h⟩ := noImmediate_ok.1 h; obtain ⟨rfl, rfl⟩ := noSelect_ok.1 h; rfl
  · obtain ⟨rfl, rfl⟩ := noSelect_ok.1 h; rfl
  · obtain ⟨rfl, h⟩ := noImmediate_ok.1 h; obtain ⟨rfl, rfl⟩ := noSelect_ok.1 h; rfl
  · obtain ⟨rfl, h⟩ := noImmediate_ok.1 h; exact (registerSelect_ok.1 h).symm
  · cases h

end Sys2Proof
end

