-- ==== Sys2Proof/Laws/Memory.lean ====
section
/-! SUPPORT. The laws of the memory device (20_memory.md R43 to R46): a read after a write, and that every memory operation keeps the canonical form. -/

namespace Sys2Proof.Machine

theorem lookupCell_insertCell (k j : Nat) (v : Data) (m : Memory) :
    lookupCell j (insertCell k v m) = if k = j then some v else lookupCell j m := by
  induction m with
  | nil => simp [insertCell, lookupCell]
  | cons c cells ih =>
    obtain ⟨n, b⟩ := c
    simp only [insertCell]
    split
    · simp [lookupCell]
    · split
      · subst_vars
        by_cases h : n = j <;> simp [lookupCell, h]
      · by_cases h : n = j
        · have : ¬ k = j := by omega
          simp [lookupCell, h, this]
        · simp [lookupCell, h, ih]

/-- What a read of one address gives after a write to another or the same. -/
theorem Memory.read_write (m : Memory) (addr addr' : Address) (v : Data) :
    (m.write addr v).read addr' = if addr = addr' then some v else m.read addr' := by
  simp only [Memory.write, Memory.read, lookupCell_insertCell, BitVec.toNat_inj]

theorem risingFrom_insertCell {k : Nat} {v : Data} {m : Memory} {low : Nat}
    (hm : risingFrom low m = true) (hk : low ≤ k) : risingFrom low (insertCell k v m) = true := by
  induction m generalizing low with
  | nil => simp [insertCell, risingFrom, hk]
  | cons c cells ih =>
    obtain ⟨n, b⟩ := c
    simp only [risingFrom, Bool.and_eq_true, decide_eq_true_eq] at hm
    simp only [insertCell]
    split
    · simp only [risingFrom, Bool.and_eq_true, decide_eq_true_eq]
      exact ⟨hk, by omega, hm.2⟩
    · split
      · subst_vars
        simp [risingFrom, hm]
      · simp only [risingFrom, Bool.and_eq_true, decide_eq_true_eq]
        exact ⟨hm.1, ih hm.2 (by omega)⟩

theorem all_insertCell {p : Host.Cell → Bool} {k : Nat} {v : Data} {m : Memory}
    (hm : m.all p = true) (hk : p (k, v) = true) : (insertCell k v m).all p = true := by
  induction m with
  | nil => simpa [insertCell] using hk
  | cons c cells ih =>
    obtain ⟨n, b⟩ := c
    simp only [List.all_cons, Bool.and_eq_true] at hm
    simp only [insertCell]
    split
    · simp [hk, hm.1, hm.2]
    · split
      · simp [hk, hm.2]
      · simp [hm.1, ih hm.2]

/-- A write keeps the canonical form; a read changes no memory (R46). -/
theorem Memory.write_wf {m : Memory} (hm : m.wf = true) (addr : Address) (v : Data) :
    (m.write addr v).wf = true := by
  simp only [Memory.wf, Bool.and_eq_true] at hm ⊢
  exact ⟨risingFrom_insertCell hm.1 (Nat.zero_le _), all_insertCell hm.2 (by simpa using addr.isLt)⟩

/-- The memory of the reset state is canonical. -/
theorem reset_mem_wf : State.reset.mem.wf = true := rfl

end Sys2Proof.Machine
end

