-- ==== Sys2Proof/Laws/State.lean ====
section
/-! SUPPORT. One lemma per field per update of State, true by rfl, so that no later proof unfolds a record update. -/

namespace Sys2Proof.Machine

variable (s : State)

@[simp] theorem State.returns_pc (v : PortValue) : (s.returns v).pc = s.pc := rfl
@[simp] theorem State.returns_sp (v : PortValue) : (s.returns v).sp = s.sp := rfl
@[simp] theorem State.returns_a (v : PortValue) : (s.returns v).a = s.a := rfl
@[simp] theorem State.returns_sr (v : PortValue) : (s.returns v).sr = s.sr := rfl
@[simp] theorem State.returns_ir (v : PortValue) : (s.returns v).ir = s.ir := rfl
@[simp] theorem State.returns_mar (v : PortValue) : (s.returns v).mar = s.mar := rfl
@[simp] theorem State.returns_mdr (v : PortValue) : (s.returns v).mdr = s.mdr := rfl
@[simp] theorem State.returns_addrBus (v : PortValue) : (s.returns v).addrBus = s.addrBus := rfl
@[simp] theorem State.returns_dataBus (v : PortValue) : (s.returns v).dataBus = s.dataBus := rfl
@[simp] theorem State.returns_rwb (v : PortValue) : (s.returns v).rwb = s.rwb := rfl
@[simp] theorem State.returns_phase (v : PortValue) : (s.returns v).phase = s.phase := rfl
@[simp] theorem State.returns_trace (v : PortValue) : (s.returns v).trace = s.trace := rfl
@[simp] theorem State.returns_fault (v : PortValue) : (s.returns v).fault = s.fault := rfl
@[simp] theorem State.returns_mem (v : PortValue) : (s.returns v).mem = s.mem := rfl
@[simp] theorem State.returns_config (v : PortValue) : (s.returns v).config = s.config := rfl
@[simp] theorem State.returns_result (v : PortValue) : (s.returns v).result = some v := rfl
@[simp] theorem State.returns_driver (v : PortValue) : (s.returns v).driver = s.driver := rfl

@[simp] theorem State.returnsNothing_pc : (s.returnsNothing).pc = s.pc := rfl
@[simp] theorem State.returnsNothing_sp : (s.returnsNothing).sp = s.sp := rfl
@[simp] theorem State.returnsNothing_a : (s.returnsNothing).a = s.a := rfl
@[simp] theorem State.returnsNothing_sr : (s.returnsNothing).sr = s.sr := rfl
@[simp] theorem State.returnsNothing_ir : (s.returnsNothing).ir = s.ir := rfl
@[simp] theorem State.returnsNothing_mar : (s.returnsNothing).mar = s.mar := rfl
@[simp] theorem State.returnsNothing_mdr : (s.returnsNothing).mdr = s.mdr := rfl
@[simp] theorem State.returnsNothing_addrBus : (s.returnsNothing).addrBus = s.addrBus := rfl
@[simp] theorem State.returnsNothing_dataBus : (s.returnsNothing).dataBus = s.dataBus := rfl
@[simp] theorem State.returnsNothing_rwb : (s.returnsNothing).rwb = s.rwb := rfl
@[simp] theorem State.returnsNothing_phase : (s.returnsNothing).phase = s.phase := rfl
@[simp] theorem State.returnsNothing_trace : (s.returnsNothing).trace = s.trace := rfl
@[simp] theorem State.returnsNothing_fault : (s.returnsNothing).fault = s.fault := rfl
@[simp] theorem State.returnsNothing_mem : (s.returnsNothing).mem = s.mem := rfl
@[simp] theorem State.returnsNothing_config : (s.returnsNothing).config = s.config := rfl
@[simp] theorem State.returnsNothing_result : (s.returnsNothing).result = none := rfl
@[simp] theorem State.returnsNothing_driver : (s.returnsNothing).driver = s.driver := rfl

@[simp] theorem State.writeFlag_pc (f : StatusFlag) (v : Bool) : (s.writeFlag f v).pc = s.pc := rfl
@[simp] theorem State.writeFlag_sp (f : StatusFlag) (v : Bool) : (s.writeFlag f v).sp = s.sp := rfl
@[simp] theorem State.writeFlag_a (f : StatusFlag) (v : Bool) : (s.writeFlag f v).a = s.a := rfl
@[simp] theorem State.writeFlag_sr (f : StatusFlag) (v : Bool) : (s.writeFlag f v).sr = setFlag s.sr f v := rfl
@[simp] theorem State.writeFlag_ir (f : StatusFlag) (v : Bool) : (s.writeFlag f v).ir = s.ir := rfl
@[simp] theorem State.writeFlag_mar (f : StatusFlag) (v : Bool) : (s.writeFlag f v).mar = s.mar := rfl
@[simp] theorem State.writeFlag_mdr (f : StatusFlag) (v : Bool) : (s.writeFlag f v).mdr = s.mdr := rfl
@[simp] theorem State.writeFlag_addrBus (f : StatusFlag) (v : Bool) : (s.writeFlag f v).addrBus = s.addrBus := rfl
@[simp] theorem State.writeFlag_dataBus (f : StatusFlag) (v : Bool) : (s.writeFlag f v).dataBus = s.dataBus := rfl
@[simp] theorem State.writeFlag_rwb (f : StatusFlag) (v : Bool) : (s.writeFlag f v).rwb = s.rwb := rfl
@[simp] theorem State.writeFlag_phase (f : StatusFlag) (v : Bool) : (s.writeFlag f v).phase = s.phase := rfl
@[simp] theorem State.writeFlag_trace (f : StatusFlag) (v : Bool) : (s.writeFlag f v).trace = s.trace := rfl
@[simp] theorem State.writeFlag_fault (f : StatusFlag) (v : Bool) : (s.writeFlag f v).fault = s.fault := rfl
@[simp] theorem State.writeFlag_mem (f : StatusFlag) (v : Bool) : (s.writeFlag f v).mem = s.mem := rfl
@[simp] theorem State.writeFlag_config (f : StatusFlag) (v : Bool) : (s.writeFlag f v).config = s.config := rfl
@[simp] theorem State.writeFlag_result (f : StatusFlag) (v : Bool) : (s.writeFlag f v).result = s.result := rfl
@[simp] theorem State.writeFlag_driver (f : StatusFlag) (v : Bool) : (s.writeFlag f v).driver = s.driver := rfl

@[simp] theorem State.loadA_pc (v : Data) : (s.loadA v).pc = s.pc := rfl
@[simp] theorem State.loadA_sp (v : Data) : (s.loadA v).sp = s.sp := rfl
@[simp] theorem State.loadA_a (v : Data) : (s.loadA v).a = v := rfl
@[simp] theorem State.loadA_sr (v : Data) : (s.loadA v).sr = refreshFlags s.sr v := rfl
@[simp] theorem State.loadA_ir (v : Data) : (s.loadA v).ir = s.ir := rfl
@[simp] theorem State.loadA_mar (v : Data) : (s.loadA v).mar = s.mar := rfl
@[simp] theorem State.loadA_mdr (v : Data) : (s.loadA v).mdr = s.mdr := rfl
@[simp] theorem State.loadA_addrBus (v : Data) : (s.loadA v).addrBus = s.addrBus := rfl
@[simp] theorem State.loadA_dataBus (v : Data) : (s.loadA v).dataBus = s.dataBus := rfl
@[simp] theorem State.loadA_rwb (v : Data) : (s.loadA v).rwb = s.rwb := rfl
@[simp] theorem State.loadA_phase (v : Data) : (s.loadA v).phase = s.phase := rfl
@[simp] theorem State.loadA_trace (v : Data) : (s.loadA v).trace = s.trace := rfl
@[simp] theorem State.loadA_fault (v : Data) : (s.loadA v).fault = s.fault := rfl
@[simp] theorem State.loadA_mem (v : Data) : (s.loadA v).mem = s.mem := rfl
@[simp] theorem State.loadA_config (v : Data) : (s.loadA v).config = s.config := rfl
@[simp] theorem State.loadA_result (v : Data) : (s.loadA v).result = s.result := rfl
@[simp] theorem State.loadA_driver (v : Data) : (s.loadA v).driver = s.driver := rfl

@[simp] theorem State.driveAddr_pc (v : Address) : (s.driveAddr v).pc = s.pc := rfl
@[simp] theorem State.driveAddr_sp (v : Address) : (s.driveAddr v).sp = s.sp := rfl
@[simp] theorem State.driveAddr_a (v : Address) : (s.driveAddr v).a = s.a := rfl
@[simp] theorem State.driveAddr_sr (v : Address) : (s.driveAddr v).sr = s.sr := rfl
@[simp] theorem State.driveAddr_ir (v : Address) : (s.driveAddr v).ir = s.ir := rfl
@[simp] theorem State.driveAddr_mar (v : Address) : (s.driveAddr v).mar = s.mar := rfl
@[simp] theorem State.driveAddr_mdr (v : Address) : (s.driveAddr v).mdr = s.mdr := rfl
@[simp] theorem State.driveAddr_addrBus (v : Address) : (s.driveAddr v).addrBus = v := rfl
@[simp] theorem State.driveAddr_dataBus (v : Address) : (s.driveAddr v).dataBus = s.dataBus := rfl
@[simp] theorem State.driveAddr_rwb (v : Address) : (s.driveAddr v).rwb = s.rwb := rfl
@[simp] theorem State.driveAddr_phase (v : Address) : (s.driveAddr v).phase = s.phase := rfl
@[simp] theorem State.driveAddr_trace (v : Address) : (s.driveAddr v).trace = s.trace ++ [.driveAddr v] := rfl
@[simp] theorem State.driveAddr_fault (v : Address) : (s.driveAddr v).fault = s.fault := rfl
@[simp] theorem State.driveAddr_mem (v : Address) : (s.driveAddr v).mem = s.mem := rfl
@[simp] theorem State.driveAddr_config (v : Address) : (s.driveAddr v).config = s.config := rfl
@[simp] theorem State.driveAddr_result (v : Address) : (s.driveAddr v).result = s.result := rfl
@[simp] theorem State.driveAddr_driver (v : Address) : (s.driveAddr v).driver = s.driver := rfl

@[simp] theorem State.driveData_pc (v : Data) : (s.driveData v).pc = s.pc := rfl
@[simp] theorem State.driveData_sp (v : Data) : (s.driveData v).sp = s.sp := rfl
@[simp] theorem State.driveData_a (v : Data) : (s.driveData v).a = s.a := rfl
@[simp] theorem State.driveData_sr (v : Data) : (s.driveData v).sr = s.sr := rfl
@[simp] theorem State.driveData_ir (v : Data) : (s.driveData v).ir = s.ir := rfl
@[simp] theorem State.driveData_mar (v : Data) : (s.driveData v).mar = s.mar := rfl
@[simp] theorem State.driveData_mdr (v : Data) : (s.driveData v).mdr = s.mdr := rfl
@[simp] theorem State.driveData_addrBus (v : Data) : (s.driveData v).addrBus = s.addrBus := rfl
@[simp] theorem State.driveData_dataBus (v : Data) : (s.driveData v).dataBus = v := rfl
@[simp] theorem State.driveData_rwb (v : Data) : (s.driveData v).rwb = s.rwb := rfl
@[simp] theorem State.driveData_phase (v : Data) : (s.driveData v).phase = s.phase := rfl
@[simp] theorem State.driveData_trace (v : Data) : (s.driveData v).trace = s.trace ++ [.driveData v] := rfl
@[simp] theorem State.driveData_fault (v : Data) : (s.driveData v).fault = s.fault := rfl
@[simp] theorem State.driveData_mem (v : Data) : (s.driveData v).mem = s.mem := rfl
@[simp] theorem State.driveData_config (v : Data) : (s.driveData v).config = s.config := rfl
@[simp] theorem State.driveData_result (v : Data) : (s.driveData v).result = s.result := rfl
@[simp] theorem State.driveData_driver (v : Data) : (s.driveData v).driver = s.driver := rfl

@[simp] theorem State.driveMode_pc (m : BusMode) : (s.driveMode m).pc = s.pc := rfl
@[simp] theorem State.driveMode_sp (m : BusMode) : (s.driveMode m).sp = s.sp := rfl
@[simp] theorem State.driveMode_a (m : BusMode) : (s.driveMode m).a = s.a := rfl
@[simp] theorem State.driveMode_sr (m : BusMode) : (s.driveMode m).sr = s.sr := rfl
@[simp] theorem State.driveMode_ir (m : BusMode) : (s.driveMode m).ir = s.ir := rfl
@[simp] theorem State.driveMode_mar (m : BusMode) : (s.driveMode m).mar = s.mar := rfl
@[simp] theorem State.driveMode_mdr (m : BusMode) : (s.driveMode m).mdr = s.mdr := rfl
@[simp] theorem State.driveMode_addrBus (m : BusMode) : (s.driveMode m).addrBus = s.addrBus := rfl
@[simp] theorem State.driveMode_dataBus (m : BusMode) : (s.driveMode m).dataBus = s.dataBus := rfl
@[simp] theorem State.driveMode_rwb (m : BusMode) : (s.driveMode m).rwb = m := rfl
@[simp] theorem State.driveMode_phase (m : BusMode) : (s.driveMode m).phase = s.phase := rfl
@[simp] theorem State.driveMode_trace (m : BusMode) : (s.driveMode m).trace = s.trace ++ [.driveMode m] := rfl
@[simp] theorem State.driveMode_fault (m : BusMode) : (s.driveMode m).fault = s.fault := rfl
@[simp] theorem State.driveMode_mem (m : BusMode) : (s.driveMode m).mem = s.mem := rfl
@[simp] theorem State.driveMode_config (m : BusMode) : (s.driveMode m).config = s.config := rfl
@[simp] theorem State.driveMode_result (m : BusMode) : (s.driveMode m).result = s.result := rfl
@[simp] theorem State.driveMode_driver (m : BusMode) : (s.driveMode m).driver = s.driver := rfl

@[simp] theorem State.enter_pc (p : Phase) : (s.enter p).pc = s.pc := rfl
@[simp] theorem State.enter_sp (p : Phase) : (s.enter p).sp = s.sp := rfl
@[simp] theorem State.enter_a (p : Phase) : (s.enter p).a = s.a := rfl
@[simp] theorem State.enter_sr (p : Phase) : (s.enter p).sr = s.sr := rfl
@[simp] theorem State.enter_ir (p : Phase) : (s.enter p).ir = s.ir := rfl
@[simp] theorem State.enter_mar (p : Phase) : (s.enter p).mar = s.mar := rfl
@[simp] theorem State.enter_mdr (p : Phase) : (s.enter p).mdr = s.mdr := rfl
@[simp] theorem State.enter_addrBus (p : Phase) : (s.enter p).addrBus = s.addrBus := rfl
@[simp] theorem State.enter_dataBus (p : Phase) : (s.enter p).dataBus = s.dataBus := rfl
@[simp] theorem State.enter_rwb (p : Phase) : (s.enter p).rwb = s.rwb := rfl
@[simp] theorem State.enter_phase (p : Phase) : (s.enter p).phase = p := rfl
@[simp] theorem State.enter_trace (p : Phase) : (s.enter p).trace = s.trace := rfl
@[simp] theorem State.enter_fault (p : Phase) : (s.enter p).fault = s.fault := rfl
@[simp] theorem State.enter_mem (p : Phase) : (s.enter p).mem = s.mem := rfl
@[simp] theorem State.enter_config (p : Phase) : (s.enter p).config = s.config := rfl
@[simp] theorem State.enter_result (p : Phase) : (s.enter p).result = s.result := rfl
@[simp] theorem State.enter_driver (p : Phase) : (s.enter p).driver = s.driver := rfl

@[simp] theorem State.store_pc (addr : Address) (v : Data) : (s.store addr v).pc = s.pc := rfl
@[simp] theorem State.store_sp (addr : Address) (v : Data) : (s.store addr v).sp = s.sp := rfl
@[simp] theorem State.store_a (addr : Address) (v : Data) : (s.store addr v).a = s.a := rfl
@[simp] theorem State.store_sr (addr : Address) (v : Data) : (s.store addr v).sr = s.sr := rfl
@[simp] theorem State.store_ir (addr : Address) (v : Data) : (s.store addr v).ir = s.ir := rfl
@[simp] theorem State.store_mar (addr : Address) (v : Data) : (s.store addr v).mar = s.mar := rfl
@[simp] theorem State.store_mdr (addr : Address) (v : Data) : (s.store addr v).mdr = s.mdr := rfl
@[simp] theorem State.store_addrBus (addr : Address) (v : Data) : (s.store addr v).addrBus = s.addrBus := rfl
@[simp] theorem State.store_dataBus (addr : Address) (v : Data) : (s.store addr v).dataBus = s.dataBus := rfl
@[simp] theorem State.store_rwb (addr : Address) (v : Data) : (s.store addr v).rwb = s.rwb := rfl
@[simp] theorem State.store_phase (addr : Address) (v : Data) : (s.store addr v).phase = s.phase := rfl
@[simp] theorem State.store_trace (addr : Address) (v : Data) : (s.store addr v).trace = s.trace := rfl
@[simp] theorem State.store_fault (addr : Address) (v : Data) : (s.store addr v).fault = s.fault := rfl
@[simp] theorem State.store_mem (addr : Address) (v : Data) : (s.store addr v).mem = s.mem.write addr v := rfl
@[simp] theorem State.store_config (addr : Address) (v : Data) : (s.store addr v).config = s.config := rfl
@[simp] theorem State.store_result (addr : Address) (v : Data) : (s.store addr v).result = s.result := rfl
@[simp] theorem State.store_driver (addr : Address) (v : Data) : (s.store addr v).driver = s.driver := rfl

@[simp] theorem State.raise_pc (f : Fault) : (s.raise f).pc = s.pc := rfl
@[simp] theorem State.raise_sp (f : Fault) : (s.raise f).sp = s.sp := rfl
@[simp] theorem State.raise_a (f : Fault) : (s.raise f).a = s.a := rfl
@[simp] theorem State.raise_sr (f : Fault) : (s.raise f).sr = s.sr := rfl
@[simp] theorem State.raise_ir (f : Fault) : (s.raise f).ir = s.ir := rfl
@[simp] theorem State.raise_mar (f : Fault) : (s.raise f).mar = s.mar := rfl
@[simp] theorem State.raise_mdr (f : Fault) : (s.raise f).mdr = s.mdr := rfl
@[simp] theorem State.raise_addrBus (f : Fault) : (s.raise f).addrBus = s.addrBus := rfl
@[simp] theorem State.raise_dataBus (f : Fault) : (s.raise f).dataBus = s.dataBus := rfl
@[simp] theorem State.raise_rwb (f : Fault) : (s.raise f).rwb = s.rwb := rfl
@[simp] theorem State.raise_phase (f : Fault) : (s.raise f).phase = s.phase := rfl
@[simp] theorem State.raise_trace (f : Fault) : (s.raise f).trace = s.trace := rfl
@[simp] theorem State.raise_fault (f : Fault) : (s.raise f).fault = some f := rfl
@[simp] theorem State.raise_mem (f : Fault) : (s.raise f).mem = s.mem := rfl
@[simp] theorem State.raise_config (f : Fault) : (s.raise f).config = s.config := rfl
@[simp] theorem State.raise_result (f : Fault) : (s.raise f).result = none := rfl
@[simp] theorem State.raise_driver (f : Fault) : (s.raise f).driver = s.driver := rfl

@[simp] theorem State.withDriver_pc (d : List DriverEvent) : (s.withDriver d).pc = s.pc := rfl
@[simp] theorem State.withDriver_sp (d : List DriverEvent) : (s.withDriver d).sp = s.sp := rfl
@[simp] theorem State.withDriver_a (d : List DriverEvent) : (s.withDriver d).a = s.a := rfl
@[simp] theorem State.withDriver_sr (d : List DriverEvent) : (s.withDriver d).sr = s.sr := rfl
@[simp] theorem State.withDriver_ir (d : List DriverEvent) : (s.withDriver d).ir = s.ir := rfl
@[simp] theorem State.withDriver_mar (d : List DriverEvent) : (s.withDriver d).mar = s.mar := rfl
@[simp] theorem State.withDriver_mdr (d : List DriverEvent) : (s.withDriver d).mdr = s.mdr := rfl
@[simp] theorem State.withDriver_addrBus (d : List DriverEvent) : (s.withDriver d).addrBus = s.addrBus := rfl
@[simp] theorem State.withDriver_dataBus (d : List DriverEvent) : (s.withDriver d).dataBus = s.dataBus := rfl
@[simp] theorem State.withDriver_rwb (d : List DriverEvent) : (s.withDriver d).rwb = s.rwb := rfl
@[simp] theorem State.withDriver_phase (d : List DriverEvent) : (s.withDriver d).phase = s.phase := rfl
@[simp] theorem State.withDriver_trace (d : List DriverEvent) : (s.withDriver d).trace = s.trace := rfl
@[simp] theorem State.withDriver_fault (d : List DriverEvent) : (s.withDriver d).fault = s.fault := rfl
@[simp] theorem State.withDriver_mem (d : List DriverEvent) : (s.withDriver d).mem = s.mem := rfl
@[simp] theorem State.withDriver_config (d : List DriverEvent) : (s.withDriver d).config = s.config := rfl
@[simp] theorem State.withDriver_result (d : List DriverEvent) : (s.withDriver d).result = s.result := rfl
@[simp] theorem State.withDriver_driver (d : List DriverEvent) : (s.withDriver d).driver = d := rfl

@[simp] theorem State.blockReset_pc : (s.blockReset).pc = 0 := rfl
@[simp] theorem State.blockReset_sp : (s.blockReset).sp = 0 := rfl
@[simp] theorem State.blockReset_a : (s.blockReset).a = 0 := rfl
@[simp] theorem State.blockReset_sr : (s.blockReset).sr = 0 := rfl
@[simp] theorem State.blockReset_ir : (s.blockReset).ir = 0 := rfl
@[simp] theorem State.blockReset_mar : (s.blockReset).mar = 0 := rfl
@[simp] theorem State.blockReset_mdr : (s.blockReset).mdr = 0 := rfl
@[simp] theorem State.blockReset_addrBus : (s.blockReset).addrBus = 0 := rfl
@[simp] theorem State.blockReset_dataBus : (s.blockReset).dataBus = 0 := rfl
@[simp] theorem State.blockReset_rwb : (s.blockReset).rwb = .read := rfl
@[simp] theorem State.blockReset_phase : (s.blockReset).phase = .idle := rfl
@[simp] theorem State.blockReset_trace : (s.blockReset).trace = [] := rfl
@[simp] theorem State.blockReset_fault : (s.blockReset).fault = none := rfl
@[simp] theorem State.blockReset_mem : (s.blockReset).mem = s.mem := rfl
@[simp] theorem State.blockReset_config : (s.blockReset).config = s.config := rfl
@[simp] theorem State.blockReset_result : (s.blockReset).result = none := rfl
@[simp] theorem State.blockReset_driver : (s.blockReset).driver = s.driver := rfl

variable (mem : Memory) (config : Config) (driver : List DriverEvent)

@[simp] theorem State.launch_pc : (State.launch mem config driver).pc = 0 := rfl
@[simp] theorem State.launch_sp : (State.launch mem config driver).sp = 0 := rfl
@[simp] theorem State.launch_a : (State.launch mem config driver).a = 0 := rfl
@[simp] theorem State.launch_sr : (State.launch mem config driver).sr = 0 := rfl
@[simp] theorem State.launch_ir : (State.launch mem config driver).ir = 0 := rfl
@[simp] theorem State.launch_mar : (State.launch mem config driver).mar = 0 := rfl
@[simp] theorem State.launch_mdr : (State.launch mem config driver).mdr = 0 := rfl
@[simp] theorem State.launch_addrBus : (State.launch mem config driver).addrBus = 0 := rfl
@[simp] theorem State.launch_dataBus : (State.launch mem config driver).dataBus = 0 := rfl
@[simp] theorem State.launch_rwb : (State.launch mem config driver).rwb = .read := rfl
@[simp] theorem State.launch_phase : (State.launch mem config driver).phase = .idle := rfl
@[simp] theorem State.launch_trace : (State.launch mem config driver).trace = [] := rfl
@[simp] theorem State.launch_fault : (State.launch mem config driver).fault = none := rfl
@[simp] theorem State.launch_mem : (State.launch mem config driver).mem = mem := rfl
@[simp] theorem State.launch_config : (State.launch mem config driver).config = config := rfl
@[simp] theorem State.launch_result : (State.launch mem config driver).result = none := rfl
@[simp] theorem State.launch_driver : (State.launch mem config driver).driver = driver := rfl

end Sys2Proof.Machine
end

