-- ==== Sys2Proof/Laws/Ops.lean ====
section
/-! SUPPORT. One lemma per shared operation, saying once what it can do: the flag operations bit by bit, the phase gate, the meanings that can raise, and the service step. -/

namespace Sys2Proof.Machine

/-- The bit of `sr` a flag is (10_state.md R22). -/
def flagIndex : StatusFlag → Nat
  | .zro => 1
  | .neg => 7

theorem mask_eq_twoPow (f : StatusFlag) : mask f = BitVec.twoPow 8 (flagIndex f) := by
  cases f <;> rfl

/-- `get_flag` reads its bit. -/
theorem getFlag_eq (sr : Flags) (f : StatusFlag) : getFlag sr f = sr.getLsbD (flagIndex f) := by
  revert sr; cases f <;> decide

/-- `set_flag` writes its bit and keeps the other seven. -/
theorem getLsbD_setFlag (sr : Flags) (f : StatusFlag) (v : Bool) (n : Nat) :
    (setFlag sr f v).getLsbD n = if n = flagIndex f then v else sr.getLsbD n := by
  have hf : flagIndex f < 8 := by cases f <;> decide
  cases v <;> simp only [setFlag, mask_eq_twoPow, Bool.false_eq_true, if_false, if_true,
    BitVec.getLsbD_and, BitVec.getLsbD_or, BitVec.getLsbD_not, BitVec.getLsbD_twoPow]
  · by_cases h : n = flagIndex f
    · simp [h]
    · by_cases hn : n < 8
      · simp [hn, Ne.symm h, h]
      · simp [h, BitVec.getLsbD_of_ge sr n (by omega)]
  · by_cases h : n = flagIndex f
    · simp [h, hf]
    · simp [h, Ne.symm h]

/-- The accumulator load writes ZRO and NEG from the byte and keeps the other six bits. -/
theorem getLsbD_refreshFlags (sr : Flags) (v : Data) (n : Nat) :
    (refreshFlags sr v).getLsbD n =
      if n = 7 then negOf v else if n = 1 then zroOf v else sr.getLsbD n := by
  rw [refreshFlags, getLsbD_setFlag, getLsbD_setFlag]; rfl

/-- The three line writes of a setup together. -/
theorem State.assertDrive_eq (s : State) (d : BusDrive) :
    s.assertDrive d =
      { s with
        addrBus := d.addr, dataBus := d.data, rwb := d.mode,
        trace := s.trace ++ [.driveAddr d.addr, .driveData d.data, .driveMode d.mode] } := by
  simp [State.assertDrive, State.driveAddr, State.driveData, State.driveMode]

/-- The phase gate lets through exactly in its phase. -/
theorem State.inPhase_next {s t : State} {op : BusOp} {p : Phase} {o : Outcome} :
    s.inPhase op p o = .next t ↔ s.phase = p ∧ o = .next t := by
  unfold State.inPhase; split <;> simp_all

/-- Where the phase gate faults: in another phase, or in its phase where what follows faults. -/
theorem State.inPhase_fault {s : State} {op : BusOp} {p : Phase} {o : Outcome} {f : Fault} :
    s.inPhase op p o = .fault f ↔
      (s.phase ≠ p ∧ f = .protocolViolation op s.phase) ∨ (s.phase = p ∧ o = .fault f) := by
  unfold State.inPhase; split <;> simp_all [eq_comm]

theorem State.inPhase_refused {s : State} {op : BusOp} {p : Phase} {o : Outcome} {r : Refusal} :
    s.inPhase op p o = .refused r ↔ s.phase = p ∧ o = .refused r := by
  unfold State.inPhase; split <;> simp_all

theorem execSetup_next {s t : State} : execSetup s = .next t ↔
    s.phase = .idle ∧ t = ((s.assertDrive s.setupDrive).enter .asserted).returnsNothing := by
  rw [execSetup, State.inPhase_next, Host.Outcome.next.injEq, eq_comm (a := t)]

theorem execService_next {b : Data} {s t : State} : execService b s = .next t ↔
    s.phase = .asserted ∧ t = ((s.acceptByte b).enter .serviced).returnsNothing := by
  rw [execService, State.inPhase_next, Host.Outcome.next.injEq, eq_comm (a := t)]

theorem execComplete_next {s t : State} : execComplete s = .next t ↔
    s.phase = .serviced ∧ t = ((s.loadA s.dataBus).enter .idle).returnsNothing := by
  rw [execComplete, State.inPhase_next, Host.Outcome.next.injEq, eq_comm (a := t)]

/-- Everything the service step can do when it goes on. -/
theorem serviceStep_next {s t : State} : serviceStep s = .next t ↔
    s.phase = .asserted ∧
      ((s.rwb = .read ∧ ∃ b, s.serviceByte = some b ∧
          t = ((s.driveData b).enter .serviced).returnsNothing) ∨
       (s.rwb = .write ∧ t = ((s.store s.addrBus s.dataBus).enter .serviced).returnsNothing)) := by
  simp only [serviceStep, State.inPhase_next]
  refine and_congr_right fun hp => ?_
  cases hm : s.rwb with
  | read =>
    cases hb : s.serviceByte with
    | none => simp
    | some b => simp [execService_next, hp, State.acceptByte, hm]
  | write => simp [execService_next, hp, State.acceptByte, hm]

/-- Where the service step faults. -/
theorem serviceStep_fault {s : State} {f : Fault} : serviceStep s = .fault f ↔
    (s.phase ≠ .asserted ∧ f = .protocolViolation .service s.phase) ∨
      (s.phase = .asserted ∧ s.rwb = .read ∧ s.serviceByte = none ∧ f = .absentRead s.addrBus) := by
  simp only [serviceStep, State.inPhase_fault]
  refine or_congr_right (and_congr_right fun hp => ?_)
  cases hm : s.rwb with
  | read =>
    cases hb : s.serviceByte with
    | none => simp [eq_comm]
    | some b => simp [execService, State.inPhase_fault, hp]
  | write => simp [execService, State.inPhase_fault, hp]

theorem serviceByte_eq_none {s : State} : s.serviceByte = none ↔
    s.mem.read s.addrBus = none ∧ s.config.absentRead = .fatal := by
  unfold State.serviceByte
  cases s.mem.read s.addrBus <;> cases s.config.absentRead <;> simp

end Sys2Proof.Machine
end

