-- ==== Sys2Proof/Laws/Step.lean ====
section
/-! SUPPORT. What a step can do, said once: the cases of the sequencer, and the unfolding of runs. -/

namespace Sys2Proof.Machine

@[simp] theorem runSteps_zero (s : State) : runSteps 0 s = .next s := rfl

theorem runSteps_succ (n : Nat) (s : State) : runSteps (n + 1) s =
    match step s with
    | .next t => runSteps n t
    | .fault f => .fault f
    | .refused r => .refused r := by
  simp only [runSteps, Host.Core.run]
  generalize hs : Sys2Proof.core.step s = o
  have h : step s = o := hs
  rw [h]
  cases o <;> rfl

theorem runSteps_succ_of_next {n : Nat} {s t : State} (h : step s = .next t) :
    runSteps (n + 1) s = runSteps n t := by rw [runSteps_succ, h]

@[simp] theorem settle_next {s t : State} {o : Outcome} : settle s o = .next t ↔
    o = .next t ∨ ∃ f, o = .fault f ∧ t = s.raise f := by
  cases o <;> simp [settle, eq_comm]

theorem step_faulted {s : State} {f : Fault} (h : s.fault = some f) : step s =
    match afterReset s.driver with
    | some rest => .next (s.withDriver rest).blockReset
    | none => .fault f := by
  cases hd : afterReset s.driver <;> simp [step, sequence, h, hd]

theorem step_unissued {s : State} (h : s.fault = none) (hd : s.driver = []) : step s = .next s := by
  simp [step, sequence, h, hd]

theorem step_event {s : State} {e : DriverEvent} {rest : List DriverEvent} (h : s.fault = none)
    (hd : s.driver = e :: rest) : step s = runEvent e (s.withDriver rest) := by
  simp [step, sequence, h, hd]

/-- Every way a step goes on: nothing issued; a reset; a command or a service that completes; one that raises. -/
theorem step_next_cases {s t : State} (h : step s = .next t) :
    (s.fault = none ∧ s.driver = [] ∧ t = s) ∨
    (∃ rest, t = (s.withDriver rest).blockReset) ∨
    (s.fault = none ∧ ∃ cw i rest, s.driver = .edge false cw :: rest ∧ decode cw = .ok i ∧
      exec i (s.withDriver rest) = .next t) ∨
    (s.fault = none ∧ ∃ rest, s.driver = .svc :: rest ∧ serviceStep (s.withDriver rest) = .next t) ∨
    (s.fault = none ∧ ∃ cw rest f, s.driver = .edge false cw :: rest ∧
      runCommand cw (s.withDriver rest) = .fault f ∧ t = (s.withDriver rest).raise f) ∨
    (s.fault = none ∧ ∃ rest f, s.driver = .svc :: rest ∧
      serviceStep (s.withDriver rest) = .fault f ∧ t = (s.withDriver rest).raise f) := by
  cases hf : s.fault with
  | some f =>
    rw [step_faulted hf] at h
    split at h
    · exact .inr (.inl ⟨_, (Host.Outcome.next.inj h).symm⟩)
    · simp at h
  | none =>
    cases hd : s.driver with
    | nil => rw [step_unissued hf hd] at h; simp_all
    | cons e rest =>
      rw [step_event hf hd] at h
      rcases e with ⟨_ | _, cw⟩ | _
      · simp only [runEvent, settle_next] at h
        rcases h with h | ⟨f, h, rfl⟩
        · right; right; left
          unfold runCommand at h
          split at h
          · exact ⟨rfl, cw, _, rest, rfl, ‹_›, h⟩
          · simp at h
        · simp [h]
      · simp only [runEvent, Host.Outcome.next.injEq] at h
        exact .inr (.inl ⟨rest, h.symm⟩)
      · simp only [runEvent, settle_next] at h
        rcases h with h | ⟨f, h, rfl⟩
        · simp [h]
        · simp [h]

end Sys2Proof.Machine
end

