-- ==== Sys2Proof/Tests/Slice0.lean ====
section
/-! SUPPORT. The model's own tests: well-formedness, decoding, one step of each operation on values of spec/95_test_vectors.md and of the rules' worked examples, and a witness for the hypotheses of every obligation that has some. -/

namespace Sys2Proof.Tests

open Sys2Proof Sys2Proof.Machine

/-! ## WellFormed: one ill-formed term for each check -/

theorem test_wf_refuses_unassigned_op :
    (⟨0x9, 0, 0⟩ : CommandFields).opAssigned = false ∧ (⟨0x9, 0, 0⟩ : CommandFields).legal = false := by decide
theorem test_wf_refuses_used_sel :
    (⟨0x4, 1, 0⟩ : CommandFields).selUnused = false ∧ (⟨0x4, 1, 0⟩ : CommandFields).legal = false := by decide
theorem test_wf_refuses_no_such_flag :
    (⟨0x1, 2, 0⟩ : CommandFields).selIsFlag = false ∧ (⟨0x1, 2, 0⟩ : CommandFields).legal = false := by decide
theorem test_wf_refuses_no_such_register :
    (⟨0x8, 10, 0⟩ : CommandFields).selIsRegister = false ∧ (⟨0x8, 10, 0⟩ : CommandFields).legal = false := by decide
theorem test_wf_refuses_used_imm :
    (⟨0x5, 0, 1⟩ : CommandFields).immUnused = false ∧ (⟨0x5, 0, 1⟩ : CommandFields).legal = false := by decide
theorem test_wf_refuses_no_boolean :
    (⟨0x3, 0, 2⟩ : CommandFields).immIsBool = false ∧ (⟨0x3, 0, 2⟩ : CommandFields).legal = false := by decide
/-- An operation that passes the checks. -/
theorem test_wf_accepts : (Instr.setf .neg true).WellFormed := by decide

/-! ## Decode: every constructor's word, written out in binary from the pattern column of R62 -/

theorem test_decode_nop : decode 0b0000000000000000 = .ok .nop := by decide
theorem test_decode_tomask : decode 0b0001000100000000 = .ok (.tomask .neg) := by decide
theorem test_decode_getf : decode 0b0010000000000000 = .ok (.getf .zro) := by decide
theorem test_decode_setf : decode 0b0011000100000001 = .ok (.setf .neg true) := by decide
theorem test_decode_seta : decode 0b0100000010000001 = .ok (.seta 0x81) := by decide
theorem test_decode_setup : decode 0b0101000000000000 = .ok .setup := by decide
theorem test_decode_service : decode 0b0110000011111110 = .ok (.service 0xFE) := by decide
theorem test_decode_complete : decode 0b0111000000000000 = .ok .complete := by decide
theorem test_decode_rdreg_pc : decode 0b1000000000000000 = .ok .rdregPc := by decide
theorem test_decode_rdreg_sp : decode 0b1000000100000000 = .ok .rdregSp := by decide
theorem test_decode_rdreg_a : decode 0b1000001000000000 = .ok .rdregA := by decide
theorem test_decode_rdreg_sr : decode 0b1000001100000000 = .ok .rdregSr := by decide
theorem test_decode_rdreg_ir : decode 0b1000010000000000 = .ok .rdregIr := by decide
theorem test_decode_rdreg_mar : decode 0b1000010100000000 = .ok .rdregMar := by decide
theorem test_decode_rdreg_mdr : decode 0b1000011000000000 = .ok .rdregMdr := by decide
theorem test_decode_rdreg_addr_bus : decode 0b1000011100000000 = .ok .rdregAddrBus := by decide
theorem test_decode_rdreg_data_bus : decode 0b1000100000000000 = .ok .rdregDataBus := by decide
theorem test_decode_rdreg_rwb : decode 0b1000100100000000 = .ok .rdregRwb := by decide

/-- The reserved words of 95_test_vectors.md 2.1, each with the reason the table names. -/
theorem test_decode_reserved :
    decode 0x0001 = .error .immNotZero ∧ decode 0x0100 = .error .selNotZero ∧
    decode 0x1200 = .error .noSuchFlag ∧ decode 0x1101 = .error .immNotZero ∧
    decode 0x3002 = .error .immNotBool ∧ decode 0x3201 = .error .noSuchFlag ∧
    decode 0x4100 = .error .selNotZero ∧ decode 0x8A00 = .error .noSuchRegister ∧
    decode 0x8F00 = .error .noSuchRegister ∧ decode 0x8001 = .error .immNotZero ∧
    decode 0x9000 = .error .opUnassigned ∧ decode 0xFFFF = .error .opUnassigned := by decide

theorem test_table_word : decodeTableWord 16 0x3101 = some (.setf .neg true) := by decide
theorem test_table_word_reserved : decodeTableWord 16 0x9000 = none := by decide

/-! ## One step of each operation -/

/-- The state the vectors write `a, sr | addr_bus, data_bus, rwb | phase`; the rest at reset. -/
def st (a : Byte) (sr : Flags) (addrBus : Address) (dataBus : Data) (rwb : BusMode) (phase : Phase) : State :=
  { State.reset with a := a, sr := sr, addrBus := addrBus, dataBus := dataBus, rwb := rwb, phase := phase }

/-- What a test looks at of an outcome: the state the vectors write, and the pins `result`, `result_valid`. -/
structure Seen where
  a : Byte
  sr : Flags
  addrBus : Address
  dataBus : Data
  rwb : BusMode
  phase : Phase
  result : Word
  valid : Bool
deriving DecidableEq, Repr

def seen (o : Outcome) : Option Seen :=
  match o with
  | .next t => some ⟨t.a, t.sr, t.addrBus, t.dataBus, t.rwb, t.phase, t.pins.result, t.pins.resultValid⟩
  | .fault _ => none
  | .refused _ => none

/-- The fault an outcome is. -/
def faultOf (o : Outcome) : Option Fault :=
  match o with
  | .next _ => none
  | .fault f => some f
  | .refused _ => none

/-- The trace an outcome leaves. -/
def traceOf (o : Outcome) : List BusEvent :=
  match o with
  | .next t => t.trace
  | .fault _ => []
  | .refused _ => []

/-- What memory holds after an outcome. -/
def memAfter (o : Outcome) (addr : Address) : Option Data :=
  match o with
  | .next t => t.mem.read addr
  | .fault _ => none
  | .refused _ => none

/-- The state in the middle of the cycle of S12. -/
def served : State := st 0x00 0x00 0x00FF 0x2A .write .serviced

/-- 2.5: NOP in any state. -/
theorem test_nop : seen (exec .nop served) = some ⟨0x00, 0x00, 0x00FF, 0x2A, .write, .serviced, 0, false⟩ := by
  decide
/-- 2.2: TOMASK, any `sr`. -/
theorem test_tomask : seen (exec (.tomask .neg) (st 0x11 0xFF 0 0 .read .asserted)) =
    some ⟨0x11, 0xFF, 0, 0, .read, .asserted, 0x0080, true⟩ := by decide
theorem test_tomask_zro : seen (exec (.tomask .zro) State.reset) =
    some ⟨0, 0, 0, 0, .read, .idle, 0x0002, true⟩ := by decide
/-- 2.2: `sr = 0x80`, GETF NEG and GETF ZRO; `sr = 0x7D`, the reserved bits do not matter. -/
theorem test_getf : seen (exec (.getf .neg) (st 0 0x80 0 0 .read .idle)) =
    some ⟨0, 0x80, 0, 0, .read, .idle, 0x0001, true⟩ := by decide
theorem test_getf_reserved_bits : seen (exec (.getf .zro) (st 0 0x7D 0 0 .read .idle)) =
    some ⟨0, 0x7D, 0, 0, .read, .idle, 0x0000, true⟩ := by decide
/-- 2.3: `0x7D`, SETF NEG, 1 gives `0xFD`; `0xFF`, SETF ZRO, 0 gives `0xFD`. -/
theorem test_setf_set : seen (exec (.setf .neg true) (st 0x2A 0x7D 0 0 .read .idle)) =
    some ⟨0x2A, 0xFD, 0, 0, .read, .idle, 0, false⟩ := by decide
theorem test_setf_clear : seen (exec (.setf .zro false) (st 0x2A 0xFF 0 0 .read .idle)) =
    some ⟨0x2A, 0xFD, 0, 0, .read, .idle, 0, false⟩ := by decide
/-- 2.4: `0xFF`, SETA 0x80 gives `0xFD`; `0x80`, SETA 0x00 gives `0x02`. -/
theorem test_seta_negative : seen (exec (.seta 0x80) (st 0x11 0xFF 0 0 .read .idle)) =
    some ⟨0x80, 0xFD, 0, 0, .read, .idle, 0, false⟩ := by decide
theorem test_seta_zero : seen (exec (.seta 0x00) (st 0x11 0x80 0 0 .read .idle)) =
    some ⟨0x00, 0x02, 0, 0, .read, .idle, 0, false⟩ := by decide
/-- 2.6: SETUP from reset, with its trace. -/
theorem test_setup : seen (exec .setup State.reset) =
    some ⟨0, 0, 0x00FF, 0x2A, .write, .asserted, 0, false⟩ := by decide
theorem test_setup_trace : traceOf (exec .setup State.reset) =
    [.driveAddr 0x00FF, .driveData 0x2A, .driveMode .write] := by decide
/-- 2.6: SERVICE 0x99 is ignored on WRITE; SERVICE 0x80 is taken on READ. -/
theorem test_service_write : seen (exec (.service 0x99) (st 0 0 0x00FF 0x2A .write .asserted)) =
    some ⟨0, 0, 0x00FF, 0x2A, .write, .serviced, 0, false⟩ := by decide
theorem test_service_read : seen (exec (.service 0x80) (st 0 0 0x1234 0x55 .read .asserted)) =
    some ⟨0, 0, 0x1234, 0x80, .read, .serviced, 0, false⟩ := by decide
/-- 2.6: COMPLETE of a WRITE cycle, and of a READ cycle that clears two set flags. -/
theorem test_complete_write : seen (exec .complete (st 0x11 0x00 0x00FF 0x2A .write .serviced)) =
    some ⟨0x2A, 0x00, 0x00FF, 0x2A, .write, .idle, 0, false⟩ := by decide
theorem test_complete_read : seen (exec .complete (st 0x11 0x82 0x1234 0x7F .read .serviced)) =
    some ⟨0x7F, 0x00, 0x1234, 0x7F, .read, .idle, 0, false⟩ := by decide

/-- A state whose ten elements all differ, so that an RDREG of the wrong element shows (R65's order). -/
def distinct : State :=
  { State.reset with
    pc := 0x1001, sp := 0x1002, a := 0x03, sr := 0x04, ir := 0x05, mar := 0x1006, mdr := 0x07,
    addrBus := 0x1008, dataBus := 0x89 }

/-- The result port of an outcome. -/
def port (o : Outcome) : Option (Word × Bool) := (seen o).map (fun t => (t.result, t.valid))

theorem test_rdreg_pc : port (exec .rdregPc distinct) = some (0x1001, true) := by decide
theorem test_rdreg_sp : port (exec .rdregSp distinct) = some (0x1002, true) := by decide
theorem test_rdreg_a : port (exec .rdregA distinct) = some (0x0003, true) := by decide
theorem test_rdreg_sr : port (exec .rdregSr distinct) = some (0x0004, true) := by decide
theorem test_rdreg_ir : port (exec .rdregIr distinct) = some (0x0005, true) := by decide
theorem test_rdreg_mar : port (exec .rdregMar distinct) = some (0x1006, true) := by decide
theorem test_rdreg_mdr : port (exec .rdregMdr distinct) = some (0x0007, true) := by decide
theorem test_rdreg_addr_bus : port (exec .rdregAddrBus distinct) = some (0x1008, true) := by decide
/-- Zero-extended, not sign-extended (R66). -/
theorem test_rdreg_data_bus : port (exec .rdregDataBus distinct) = some (0x0089, true) := by decide
/-- 2.5: READ is `0x0001` at reset, WRITE is `0x0000`. -/
theorem test_rdreg_rwb_read : port (exec .rdregRwb State.reset) = some (0x0001, true) := by decide
theorem test_rdreg_rwb_write : port (exec .rdregRwb served) = some (0x0000, true) := by decide

/-! ## The service step (2.7), faults (2.8), memory (2.9), reset (2.10) -/

/-- 2.7: the WRITE service stores `data_bus` at `addr_bus`, other locations absent. -/
theorem test_svc_write :
    memAfter (serviceStep (st 0 0 0x00FF 0x2A .write .asserted)) 0x00FF = some 0x2A ∧
    memAfter (serviceStep (st 0 0 0x00FF 0x2A .write .asserted)) 0x00FE = none := by decide
/-- 2.7: a stored zero is not absent. -/
theorem test_svc_read_zero :
    seen (serviceStep { st 0 0 0x1234 0x55 .read .asserted with mem := [(0x1234, 0x00)] }) =
      some ⟨0, 0, 0x1234, 0x00, .read, .serviced, 0, false⟩ := by decide
/-- 2.7: absent under `fatal`, and under `fill`, which does not write memory. -/
theorem test_svc_absent_fatal :
    faultOf (serviceStep (st 0 0 0x1234 0x55 .read .asserted)) = some (.absentRead 0x1234) := by decide
theorem test_svc_absent_fill :
    seen (serviceStep { st 0 0 0x1234 0x55 .read .asserted with config := { referenceConfig with absentRead := .fill 0x7E } }) =
      some ⟨0, 0, 0x1234, 0x7E, .read, .serviced, 0, false⟩ ∧
    memAfter (serviceStep { st 0 0 0x1234 0x55 .read .asserted with config := { referenceConfig with absentRead := .fill 0x7E } }) 0x1234 = none := by
  decide
/-- 2.8: each bus operation out of phase. -/
theorem test_protocol_violations :
    faultOf (exec .complete State.reset) = some (.protocolViolation .complete .idle) ∧
    faultOf (exec (.service 0) State.reset) = some (.protocolViolation .service .idle) ∧
    faultOf (exec .setup (st 0 0 0x00FF 0x2A .write .asserted)) = some (.protocolViolation .setup .asserted) ∧
    faultOf (exec .complete (st 0 0 0x00FF 0x2A .write .asserted)) = some (.protocolViolation .complete .asserted) ∧
    faultOf (exec (.service 0) served) = some (.protocolViolation .service .serviced) ∧
    faultOf (exec .setup served) = some (.protocolViolation .setup .serviced) ∧
    faultOf (serviceStep served) = some (.protocolViolation .service .serviced) := by decide
/-- 2.9: a byte at the last address; its neighbours stay absent; the last write wins. -/
theorem test_memory :
    Memory.read (Memory.write [] 0xFFFF 0xAB) 0xFFFF = some 0xAB ∧
    Memory.read (Memory.write [] 0xFFFF 0xAB) 0xFFFE = none ∧
    Memory.read (Memory.write [] 0xFFFF 0xAB) 0x0000 = none ∧
    Memory.write (Memory.write [] 0xFFFF 0xAB) 0xFFFF 0xCD = [(0xFFFF, 0xCD)] ∧
    Memory.write (Memory.write [] 0xFFFF 0xAB) 0x0000 0x00 = [(0x0000, 0x00), (0xFFFF, 0xAB)] := by decide
/-- The canonical form refuses an unordered memory and an address that does not exist. -/
theorem test_memory_wf :
    Memory.wf [(0, 0), (0xFFFF, 1)] = true ∧ Memory.wf [(1, 0), (0, 0)] = false ∧
    Memory.wf [(1, 0), (1, 0)] = false ∧ Memory.wf [(0x10000, 0)] = false := by decide
/-- 2.10: a reset in the middle of a cycle, on a faulted machine, with a reserved command word; the memory stays. -/
theorem test_reset_edge :
    seen (step { served with fault := some (.illegalCommand 0x9000), mem := [(0x00FF, 0x2A)], driver := [.edge true 0x9000] }) =
      some ⟨0, 0, 0, 0, .read, .idle, 0, false⟩ ∧
    memAfter (step { served with mem := [(0x00FF, 0x2A)], driver := [.edge true 0] }) 0x00FF = some 0x2A := by decide
/-- The pins at reset (R76): `rwb` is 1. -/
theorem test_pins_reset : State.reset.pins = ⟨0, 0, true, 0, false⟩ := by decide
/-- P3 line 4: a `SetupSource` that reads the accumulator, as a table: one tuple drives READ, every other WRITE. -/
theorem test_setup_source_table :
    (driveOf { otherwise := ⟨0x0010, 0x80, .write⟩, rows := [((st 0x80 0x80 0x0010 0x80 .write .idle).view, ⟨0x0010, 0x00, .read⟩)] }
      (st 0x80 0x80 0x0010 0x80 .write .idle).view).mode = .read ∧
    (driveOf { otherwise := ⟨0x0010, 0x80, .write⟩, rows := [((st 0x80 0x80 0x0010 0x80 .write .idle).view, ⟨0x0010, 0x00, .read⟩)] }
      State.reset.view).mode = .write := by decide
/-- A placed word is the next step's command. -/
theorem test_with_fetch_word : seen (step (State.reset.withFetchWord 16 0x40FF)) =
    some ⟨0xFF, 0x80, 0, 0, .read, .idle, 0, false⟩ := by decide
/-- A raising step records its fault and writes nothing; the one after it stops (R33). -/
theorem test_raise : (match step (State.reset.withFetchWord 16 0x7000) with
    | .next t => (t.fault, t.a, t.phase, faultOf (step t))
    | _ => (none, 0, .serviced, none)) =
    (some (.protocolViolation .complete .idle), 0, .idle, some (.protocolViolation .complete .idle)) := by decide

/-! ## Witnesses: concrete states and operands that meet the hypotheses of each obligation, clause by clause -/

/-- A word the decoder refuses decodes to no operation. -/
theorem reserved_of_error {cw : Word} {e : ReservedWord} (h : decode cw = .error e) : ∀ i, decode cw ≠ .ok i := by
  intro i hi; rw [h] at hi; cases hi

/-- Mid-cycle and faulted, with a reset to come. -/
def resetDue : State :=
  { served with fault := some (.illegalCommand 0x9000), mem := [(0x00FF, 0x2A)], driver := [.edge true 0xFFFF, .svc] }
/-- A state of the READ cycle of 2.7, its service due. -/
def readDue : State := { st 0 0 0x1234 0x55 .read .asserted with driver := [.svc] }
/-- A state of the WRITE cycle of 2.7, its service due. -/
def writeDue : State := { st 0 0 0x00FF 0x2A .write .asserted with driver := [.svc] }
/-- The reset state with one command word due. -/
def due (cw : Word) : State := { State.reset with driver := [.edge false cw] }

theorem witness_ResetStateValues : ∃ t, resetDue.driver = .edge true 0xFFFF :: [.svc] ∧ step resetDue = .next t :=
  ⟨_, rfl, rfl⟩
theorem witness_ResetEdgeRestoresEveryElement : resetDue.driver = .edge true 0xFFFF :: [.svc] ∧ resetDue.phase = .serviced :=
  ⟨rfl, rfl⟩
theorem witness_ResetEdgeRestoresEveryElement_faulted : ∃ t, resetDue.fault = some (.illegalCommand 0x9000) ∧
    step resetDue = .next t := ⟨_, rfl, rfl⟩
theorem witness_FaultRecordHoldsUntilReset_command : (due 0x7000).fault = none ∧ (due 0x7000).driver = .edge false 0x7000 :: [] ∧
    runCommand 0x7000 ((due 0x7000).withDriver []) = .fault (.protocolViolation .complete .idle) := ⟨rfl, rfl, rfl⟩
theorem witness_FaultRecordHoldsUntilReset_service : readDue.fault = none ∧ readDue.driver = .svc :: [] ∧
    serviceStep (readDue.withDriver []) = .fault (.absentRead 0x1234) := ⟨rfl, rfl, rfl⟩
theorem witness_FaultRecordHoldsUntilReset_faulted :
    (readDue.raise (.absentRead 0x1234)).fault = some (.absentRead 0x1234) ∧
    (readDue.raise (.absentRead 0x1234)).driver.any isReset = false := ⟨rfl, rfl⟩
theorem witness_FaultRecordHoldsUntilReset_reset : ∃ t, resetDue.fault = some (.illegalCommand 0x9000) ∧ step resetDue = .next t :=
  ⟨_, rfl, rfl⟩
theorem witness_StepStopsOnlyOnARecordedFault :
    step (readDue.raise (.absentRead 0x1234)) = .fault (.absentRead 0x1234) := rfl

theorem witness_StepFollowsFaultPriority_faulted :
    (readDue.raise (.absentRead 0x1234)).fault = some (.absentRead 0x1234) ∧
    (readDue.raise (.absentRead 0x1234)).driver.any isReset = false := ⟨rfl, rfl⟩
theorem witness_StepFollowsFaultPriority_reserved : (due 0xFFFF).fault = none ∧ (due 0xFFFF).driver = .edge false 0xFFFF :: [] ∧
    ∀ i, decode 0xFFFF ≠ .ok i := ⟨rfl, rfl, reserved_of_error (e := .opUnassigned) rfl⟩
theorem witness_StepFollowsFaultPriority_phase : (due 0x6000).fault = none ∧ (due 0x6000).driver = .edge false 0x6000 :: [] ∧
    decode 0x6000 = .ok (.service 0) ∧ cycleOp (.service 0) = some .service ∧ (due 0x6000).phase ≠ phaseOf .service :=
  ⟨rfl, rfl, by decide, rfl, by decide⟩
theorem witness_StepFollowsFaultPriority_service :
    ({ served with driver := [.svc] } : State).fault = none ∧ ({ served with driver := [.svc] } : State).phase ≠ .asserted := by decide
theorem witness_StepFollowsFaultPriority_absent : readDue.fault = none ∧ readDue.driver = .svc :: [] ∧ readDue.phase = .asserted ∧
    readDue.rwb = .read ∧ readDue.mem.read readDue.addrBus = none ∧ readDue.config.absentRead = .fatal := by decide

theorem witness_IllegalCommandWritesNothing : (due 0x0001).fault = none ∧ (due 0x0001).driver = .edge false 0x0001 :: [] ∧
    (∀ r ∈ opcodeRows, (0x0001 : Word) &&& r.mask ≠ r.matchBits) ∧ List.any ([] : List DriverEvent) isReset = false := by decide
/-- The last word of all, the greatest reserved word. -/
theorem witness_IllegalCommandWritesNothing_last : (∀ r ∈ opcodeRows, (0xFFFF : Word) &&& r.mask ≠ r.matchBits) := by decide
theorem witness_ProtocolViolationWritesNothing : (due 0x7000).fault = none ∧ (due 0x7000).driver = .edge false (encode .complete) :: [] ∧
    cycleOp .complete = some .complete ∧ (due 0x7000).phase ≠ phaseOf .complete := by decide
theorem witness_ProtocolViolationWritesNothing_service :
    ({ State.reset with driver := [.svc] } : State).fault = none ∧ ({ State.reset with driver := [.svc] } : State).phase ≠ .asserted := by decide
theorem witness_AbsentReadWritesNothing : readDue.fault = none ∧ readDue.driver = .svc :: [] ∧ readDue.phase = .asserted ∧
    readDue.rwb = .read ∧ readDue.mem.read readDue.addrBus = none ∧ readDue.config.absentRead = .fatal := by decide
theorem witness_AbsentReadWritesNothing_fill :
    ({ readDue with config := { referenceConfig with absentRead := .fill 0 } } : State).config.absentRead = .fill 0 := rfl
theorem reset_referenceInv : ReferenceInv State.reset := ⟨rfl, fun h => absurd rfl h, by simp [State.reset]⟩
theorem witness_AbsentReadWritesNothing_reference : ReferenceInv State.reset := reset_referenceInv
theorem witness_OnlyTheListedFaultsAreRaised : exec .complete State.reset = .fault (.protocolViolation .complete .idle) ∧
    runCommand 0x9000 State.reset = .fault (.illegalCommand 0x9000) ∧
    serviceStep readDue = .fault (.absentRead 0x1234) := ⟨rfl, rfl, rfl⟩

theorem witness_DecodeOfEncodeIsTheOperation : (Instr.service 0xFF).WellFormed ∧ (Instr.seta 0x00).WellFormed ∧
    (Instr.setf .neg true).WellFormed ∧ Instr.rdregRwb.WellFormed := by decide
theorem witness_EncodeOfDecodeIsTheWord : decode 0x8900 = .ok .rdregRwb ∧ decode 0x0000 = .ok .nop ∧
    decode 0x60FF = .ok (.service 0xFF) := by decide
theorem witness_DecoderFollowsTheOperationMap : decode 0x3101 = .ok (.setf .neg true) ∧
    (⟨"SETF", 0x3000, 0xFEFE⟩ : OpcodeRow) ∈ opcodeRows ∧ (0x3101 : Word) &&& 0xFEFE = 0x3000 := by decide

theorem witness_ReservedWordsAreTheSixCases : decode 0x0001 = .error .immNotZero ∧ decode 0xFFFF = .error .opUnassigned := by
  decide

theorem witness_StepRunsTheDecodedOperation : ∃ t, (due 0x4080).fault = none ∧ (due 0x4080).driver = .edge false 0x4080 :: [] ∧
    decode 0x4080 = .ok (.seta 0x80) ∧ exec (.seta 0x80) ((due 0x4080).withDriver []) = .next t :=
  ⟨_, rfl, rfl, by decide, rfl⟩
theorem witness_StepRunsTheDecodedOperation_fault : (due 0x7000).fault = none ∧ decode 0x7000 = .ok .complete ∧
    exec .complete ((due 0x7000).withDriver []) = .fault (.protocolViolation .complete .idle) := ⟨rfl, by decide, rfl⟩
theorem witness_StepRunsTheDecodedOperation_encoded : ∃ t, (due 0x8200).driver = .edge false (encode .rdregA) :: [] ∧
    Instr.rdregA.WellFormed ∧ exec .rdregA ((due 0x8200).withDriver []) = .next t := ⟨_, rfl, by decide, rfl⟩
theorem witness_StepRunsTheDecodedOperation_encoded_fault : (due 0x60FF).driver = .edge false (encode (.service 0xFF)) :: [] ∧
    (Instr.service 0xFF).WellFormed ∧
    exec (.service 0xFF) ((due 0x60FF).withDriver []) = .fault (.protocolViolation .service .idle) := ⟨rfl, by decide, rfl⟩
theorem witness_StepOfServiceAndOfNoEvent : ∃ t, writeDue.fault = none ∧ writeDue.driver = .svc :: [] ∧
    serviceStep (writeDue.withDriver []) = .next t := ⟨_, rfl, rfl, rfl⟩
theorem witness_StepOfServiceAndOfNoEvent_fault : readDue.fault = none ∧ readDue.driver = .svc :: [] ∧
    serviceStep (readDue.withDriver []) = .fault (.absentRead 0x1234) := ⟨rfl, rfl, rfl⟩
theorem witness_StepOfServiceAndOfNoEvent_none : State.reset.fault = none ∧ State.reset.driver = [] := ⟨rfl, rfl⟩
theorem witness_TableWordIsTheNextCommand : ∃ t, decodeTableWord 16 0x40FF = some (.seta 0xFF) ∧
    exec (.seta 0xFF) { State.reset with fault := none } = .next t := ⟨_, by decide, rfl⟩

/-- The reset state meets the invariant of the registers. -/
theorem reset_registerInv : RegisterInv State.reset := ⟨rfl, by decide, rfl, rfl, rfl, rfl, rfl⟩
/-- The reset state meets the invariant of the bus. -/
theorem reset_busInv : BusInv State.reset := ⟨rfl, rfl, rfl, rfl, fun h => by cases h⟩
theorem witness_RdregReturnsTheElement :
    [Instr.rdregPc, .rdregSp, .rdregA, .rdregSr, .rdregIr, .rdregMar, .rdregMdr, .rdregAddrBus,
      .rdregDataBus, .rdregRwb][0]? = some .rdregPc ∧
    [Instr.rdregPc, .rdregSp, .rdregA, .rdregSr, .rdregIr, .rdregMar, .rdregMdr, .rdregAddrBus,
      .rdregDataBus, .rdregRwb][9]? = some .rdregRwb := ⟨rfl, rfl⟩
theorem witness_RdregReturnsTheElement_zero : ∃ t, RegisterInv State.reset ∧ exec .rdregMdr State.reset = .next t :=
  ⟨_, reset_registerInv, rfl⟩
theorem witness_SetupAssertsTheTransaction : State.reset.phase = .idle ∧
    State.reset.config.setupSource = referenceConfig.setupSource ∧ served.phase ≠ .idle := by decide
theorem witness_ServiceTakesTheByte : readDue.phase = .asserted ∧ readDue.rwb = .read ∧ writeDue.phase = .asserted ∧
    writeDue.rwb = .write ∧ State.reset.phase ≠ .asserted := by decide
theorem witness_CompleteLoadsTheDataBus : served.phase = .serviced ∧ State.reset.phase ≠ .serviced := by decide
theorem witness_ServiceStepMakesTheOneAccess : writeDue.phase = .asserted ∧ writeDue.rwb = .write := by decide
theorem witness_ServiceStepMakesTheOneAccess_read :
    ({ readDue with mem := [(0x1234, 0x00)] } : State).mem.read 0x1234 = some 0x00 ∧
    readDue.phase = .asserted ∧ readDue.rwb = .read := by decide
theorem witness_ServiceStepMakesTheOneAccess_fill :
    ({ readDue with config := { referenceConfig with absentRead := .fill 0 } } : State).config.absentRead = .fill 0 ∧
    readDue.mem.read readDue.addrBus = none := by decide
theorem witness_ServiceStepMakesTheOneAccess_fatal : readDue.fault = none ∧ readDue.driver = .svc :: [] ∧ readDue.phase = .asserted ∧
    readDue.rwb = .read ∧ readDue.mem.read readDue.addrBus = none ∧ readDue.config.absentRead = .fatal := by decide
theorem witness_ServiceStepMakesTheOneAccess_phase : served.phase ≠ .asserted := by decide

theorem witness_FlagIsolation : StatusFlag.zro ≠ StatusFlag.neg ∧ StatusFlag.neg ≠ StatusFlag.zro := by decide
theorem witness_AccumulatorLoadClosedForm : served.phase = .serviced := rfl
theorem witness_CouplingHoldsAfterLoads_seta : ∃ t, exec (.seta 0x00) State.reset = .next t := ⟨_, rfl⟩
theorem witness_CouplingHoldsAfterLoads_complete : ∃ t, exec .complete served = .next t := ⟨_, rfl⟩
theorem witness_CouplingHoldsAfterLoads_kept : ∃ t, exec .setup State.reset = .next t ∧
    (∀ f v, Instr.setup ≠ .setf f v) ∧ (∀ x, Instr.setup ≠ .seta x) ∧ Instr.setup ≠ .complete :=
  ⟨_, rfl, by simp, by simp, by simp⟩
theorem witness_CouplingHoldsAfterLoads_setf : ∃ t, Coupled (st 0x2A 0x00 0 0 .read .idle) ∧
    exec (.setf .zro true) (st 0x2A 0x00 0 0 .read .idle) = .next t := ⟨_, by decide, rfl⟩
/-- Both flags at once, the greatest reachable `sr`, by two SETF. -/
theorem witness_ReachableStatusBytes : ∃ t, Reachable t ∧ t.sr = 0x82 :=
  ⟨_, ⟨[], referenceConfig, [.edge false 0x3001, .edge false 0x3101], 2, rfl, rfl⟩, rfl⟩

theorem witness_OperationsWriteOnlyTheirElements_read : ∃ t, exec (.service 0x80) readDue = .next t := ⟨_, rfl⟩
theorem witness_OperationsWriteOnlyTheirElements_write : ∃ t, exec (.service 0x99) writeDue = .next t ∧ writeDue.rwb = .write :=
  ⟨_, rfl, rfl⟩
theorem witness_OperationsWriteOnlyTheirElements_setf : ∃ t, exec (.setf .neg true) served = .next t ∧
    StatusFlag.neg ≠ StatusFlag.zro := ⟨_, rfl, by decide⟩
theorem witness_OnlyAWriteServiceChangesMemory : ∃ t, step writeDue = .next t ∧
    t.mem.read 0x00FF ≠ writeDue.mem.read 0x00FF := ⟨_, rfl, by decide⟩
theorem witness_OnlyAWriteServiceChangesMemory_written : ∃ t, step resetDue = .next t ∧ resetDue.mem.read 0x00FF ≠ none :=
  ⟨_, rfl, by decide⟩
theorem witness_ResultPortIsDrivenByEveryCommand : ∃ t, exec .nop State.reset = .next t ∧ returnsValue .nop = false :=
  ⟨_, rfl, rfl⟩
theorem witness_ReadingOperationsDoNotDisturbARun : returnsValue .rdregSr = true ∧ [Instr.complete] ≠ [] := ⟨rfl, by simp⟩
theorem witness_TraceIsNeverRead : ∃ t u, exec .setup State.reset = .next t ∧ serviceStep writeDue = .next u :=
  ⟨_, _, rfl, rfl⟩

theorem witness_LegalSequencesArePrefixesOfTheCycle : cycleOp .nop = none ∧ cycleOp (.service 0xFF) = some .service ∧
    readDue.phase = phaseOf .service ∧ State.reset.phase ≠ phaseOf .service := by decide
theorem witness_LegalSequencesArePrefixesOfTheCycle_run :
    ({ State.reset with driver := commandsOf [.setup, .nop] } : State).fault = none ∧
    ({ State.reset with driver := commandsOf [.setup, .nop] } : State).phase = .idle ∧
    ({ State.reset with driver := commandsOf [.setup, .nop] } : State).driver = commandsOf [.setup, .nop] := ⟨rfl, rfl, rfl⟩
theorem witness_LegalSequencesArePrefixesOfTheCycle_order : LegalOrder [.setup, .nop] := ⟨1, [.service, .complete], rfl⟩
theorem witness_DirectionIsDrivenAfterAddressAndData_setup : ∃ t, exec .setup State.reset = .next t := ⟨_, rfl⟩
theorem witness_DirectionIsDrivenAfterAddressAndData_other : ∃ t, Instr.service 0x80 ≠ .setup ∧ exec (.service 0x80) readDue = .next t :=
  ⟨_, by simp, rfl⟩
/-- After one SETUP. -/
def setUp : State := { st 0 0 0x00FF 0x2A .write .asserted with trace := [.driveAddr 0x00FF, .driveData 0x2A, .driveMode .write] }
theorem witness_DirectionIsDrivenAfterAddressAndData_trace : BusInv setUp ∧
    setUp.trace = [.driveAddr 0x00FF, .driveData 0x2A] ++ .driveMode .write :: [] :=
  ⟨⟨rfl, rfl, rfl, rfl, fun _ => rfl⟩, rfl⟩
/-- A machine about to run one cycle, with the reference `SetupSource` and with one that reads. -/
def cycleDue (src : SetupSource) (m : Memory) (p : AbsentReadPolicy) : State :=
  { State.reset with driver := cycleEvents, config := ⟨src, p⟩, mem := m }
/-- The constant source of P5. -/
def readSource : SetupSource := ⟨⟨0x0200, 0x00, .read⟩, []⟩
theorem witness_WriteCycleStoresThenLoads : (cycleDue referenceConfig.setupSource [] .fatal).fault = none ∧
    (cycleDue referenceConfig.setupSource [] .fatal).phase = .idle ∧
    (cycleDue referenceConfig.setupSource [] .fatal).driver = cycleEvents ++ [] ∧
    (driveOf referenceConfig.setupSource (cycleDue referenceConfig.setupSource [] .fatal).view).mode = .write :=
  ⟨rfl, rfl, rfl, rfl⟩
theorem witness_ReadCycleLoadsFromMemory : (cycleDue readSource [(0x0200, 0x80)] .fatal).fault = none ∧
    (cycleDue readSource [(0x0200, 0x80)] .fatal).phase = .idle ∧
    (cycleDue readSource [(0x0200, 0x80)] .fatal).driver = cycleEvents ++ [] ∧
    (driveOf readSource (cycleDue readSource [(0x0200, 0x80)] .fatal).view).mode = .read ∧
    Memory.read [(0x0200, 0x80)] 0x0200 = some 0x80 := ⟨rfl, rfl, rfl, rfl, by decide⟩
theorem witness_ReadCycleLoadsFromMemory_fill : (cycleDue readSource [] (.fill 0)).mem.read 0x0200 = none ∧
    (cycleDue readSource [] (.fill 0)).config.absentRead = .fill 0 := ⟨rfl, rfl⟩
theorem witness_ReadCycleLoadsFromMemory_fatal : (cycleDue readSource [] .fatal).mem.read 0x0200 = none ∧
    (cycleDue readSource [] .fatal).config.absentRead = .fatal := ⟨rfl, rfl⟩
theorem witness_CompletionLoadsTheServicedByte : served.phase = .serviced ∧
    ∀ i ∈ [Instr.setf .zro true, .seta 0xFF], cycleOp i = none := by decide

theorem witness_MemoryWriteReadLaw : (0x0000 : Address) ≠ 0xFFFF := by decide
theorem witness_CanonicalMemoriesAreEqualData : Memory.wf [(0x00FF, 0x2A)] = true ∧
    ∀ addr, Memory.read [(0x00FF, 0x2A)] addr = Memory.read [(0x00FF, 0x2A)] addr := ⟨rfl, fun _ => rfl⟩
theorem witness_SetupSeesOnlyTheTuple : ∃ t t', State.reset.view = (due 0x5000).view ∧ State.reset.config = (due 0x5000).config ∧
    exec .setup State.reset = .next t ∧ exec .setup (due 0x5000) = .next t' := ⟨_, _, rfl, rfl, rfl, rfl⟩
theorem witness_StepKeepsRegisterInvariant : ∃ t, RegisterInv writeDue ∧ step writeDue = .next t :=
  ⟨_, ⟨rfl, by decide, rfl, rfl, rfl, rfl, rfl⟩, rfl⟩
theorem witness_StepKeepsBusInvariant : ∃ t, BusInv { setUp with driver := [.svc] } ∧ step { setUp with driver := [.svc] } = .next t :=
  ⟨_, ⟨rfl, rfl, rfl, rfl, fun _ => rfl⟩, rfl⟩
theorem witness_StepKeepsFaultInvariant : ∃ t, FaultInv readDue ∧ step readDue = .next t := ⟨_, trivial, rfl⟩
theorem witness_ReferenceMachineNeverReads : ∃ t, ReferenceInv (due 0x5000) ∧ step (due 0x5000) = .next t :=
  ⟨_, ⟨rfl, fun h => absurd rfl h, by simp [due, State.reset]⟩, rfl⟩
theorem witness_LaunchStatesMeetTheInvariants : Memory.wf [(0x0000, 0x00), (0xFFFF, 0xFF)] = true ∧
    (⟨referenceConfig.setupSource, .fill 0⟩ : Config).setupSource = referenceConfig.setupSource := by decide

end Sys2Proof.Tests
end

/-! ## Proofs: a reset edge, and the bus event trace -/

namespace Sys2Proof.Machine

/-- An edge with `rst` asserted resets the block, whatever the command word and the fault record hold (60_exceptions.md R117 (1)). -/
theorem step_resetEdge {s : State} {cw : Word} {rest : List DriverEvent}
    (hd : s.driver = .edge true cw :: rest) : step s = .next (s.withDriver rest).blockReset := by
  cases hf : s.fault with
  | some f => rw [step_faulted hf, hd]; rfl
  | none => rw [step_event hf hd]; rfl

/-! ### The trace is only appended to -/

/-- A setup drives address, data and direction, in that order (42_bus_cycle.md R97). -/
theorem State.assertDrive_trace (s : State) (d : BusDrive) :
    (s.assertDrive d).trace =
      s.trace ++ [.driveAddr d.addr, .driveData d.data, .driveMode d.mode] := by
  rw [State.assertDrive_eq]

/-- The block's side of the service drives `data_bus` on READ and nothing on WRITE (42_bus_cycle.md R99). -/
theorem State.acceptByte_appends_trace (s : State) (b : Data) :
    ∃ es, (s.acceptByte b).trace = s.trace ++ es := by
  unfold State.acceptByte
  split
  · exact ⟨[.driveData b], rfl⟩
  · exact ⟨[], (List.append_nil _).symm⟩

theorem exec_appends_trace {i : Instr} {s t : State} (h : exec i s = .next t) :
    ∃ es, t.trace = s.trace ++ es := by
  cases i with
  | setup =>
    obtain ⟨-, rfl⟩ := execSetup_next.mp h
    exact ⟨_, s.assertDrive_trace s.setupDrive⟩
  | service b =>
    obtain ⟨-, rfl⟩ := execService_next.mp h
    simpa using s.acceptByte_appends_trace b
  | complete =>
    obtain ⟨-, rfl⟩ := execComplete_next.mp h
    exact ⟨[], by simp⟩
  | _ =>
    obtain rfl := Host.Outcome.next.inj h
    exact ⟨[], by simp⟩

theorem serviceStep_appends_trace {s t : State} (h : serviceStep s = .next t) :
    ∃ es, t.trace = s.trace ++ es := by
  obtain ⟨-, ⟨-, b, -, rfl⟩ | ⟨-, rfl⟩⟩ := serviceStep_next.mp h
  · exact ⟨[.driveData b], rfl⟩
  · exact ⟨[], by simp⟩

/-! ### The trace is read by nothing -/

/-- The state with another bus event trace. -/
def State.withTrace (s : State) (es : List BusEvent) : State := { s with trace := es }

section TraceReplaced

variable (s : State) (es : List BusEvent)

@[simp] theorem State.withTrace_rwb : (s.withTrace es).rwb = s.rwb := rfl
@[simp] theorem State.withTrace_phase : (s.withTrace es).phase = s.phase := rfl
@[simp] theorem State.withTrace_driver : (s.withTrace es).driver = s.driver := rfl
@[simp] theorem State.withTrace_serviceByte : (s.withTrace es).serviceByte = s.serviceByte := rfl

/-- The phase gate looks at the phase alone, so it keeps the agreement of what it lets through. -/
theorem agreeButTrace_inPhase {op : BusOp} {p : Phase} {o o' : Outcome} (h : agreeButTrace o o') :
    agreeButTrace ((s.withTrace es).inPhase op p o) (s.inPhase op p o') := by
  unfold State.inPhase
  rw [State.withTrace_phase]
  split
  · exact h
  · rfl

theorem agreeButTrace_execService (b : Data) :
    agreeButTrace (execService b (s.withTrace es)) (execService b s) := by
  refine agreeButTrace_inPhase s es ?_
  unfold State.acceptByte
  rw [State.withTrace_rwb]
  cases s.rwb <;> rfl

theorem agreeButTrace_exec (i : Instr) : agreeButTrace (exec i (s.withTrace es)) (exec i s) := by
  cases i with
  | setup => exact agreeButTrace_inPhase s es rfl
  | service b => exact agreeButTrace_execService s es b
  | complete => exact agreeButTrace_inPhase s es rfl
  | _ => rfl

theorem agreeButTrace_runCommand (cw : Word) :
    agreeButTrace (runCommand cw (s.withTrace es)) (runCommand cw s) := by
  unfold runCommand
  cases decode cw with
  | ok i => exact agreeButTrace_exec s es i
  | error e => rfl

theorem agreeButTrace_serviceStep :
    agreeButTrace (serviceStep (s.withTrace es)) (serviceStep s) := by
  refine agreeButTrace_inPhase s es ?_
  rw [State.withTrace_rwb, State.withTrace_serviceByte]
  cases s.rwb with
  | read =>
    cases s.serviceByte with
    | none => rfl
    | some b => exact agreeButTrace_execService s es b
  | write => exact agreeButTrace_execService (s.store s.addrBus s.dataBus) es 0x00

/-- Recording a raised fault keeps the agreement. -/
theorem agreeButTrace_settle {o o' : Outcome} (h : agreeButTrace o o') :
    agreeButTrace (settle (s.withTrace es) o) (settle s o') := by
  cases o <;> cases o' <;> simp only [agreeButTrace] at h
  case next.next => exact h
  case fault.fault => subst h; rfl
  case refused.refused => exact h

theorem agreeButTrace_runEvent (e : DriverEvent) :
    agreeButTrace (runEvent e (s.withTrace es)) (runEvent e s) := by
  rcases e with ⟨_ | _, cw⟩ | _
  · exact agreeButTrace_settle s es (agreeButTrace_runCommand s es cw)
  · rfl
  · exact agreeButTrace_settle s es (agreeButTrace_serviceStep s es)

theorem agreeButTrace_step : agreeButTrace (step (s.withTrace es)) (step s) := by
  cases hf : s.fault with
  | some f =>
    rw [step_faulted hf, step_faulted (s := s.withTrace es) hf, State.withTrace_driver]
    cases afterReset s.driver <;> rfl
  | none =>
    cases hd : s.driver with
    | nil => rw [step_unissued hf hd, step_unissued (s := s.withTrace es) hf hd]; rfl
    | cons e rest =>
      rw [step_event hf hd, step_event (s := s.withTrace es) hf hd]
      exact agreeButTrace_runEvent (s.withDriver rest) es e

end TraceReplaced

/-- Settles O41: every operation appends to the trace, and the sequencer, its operations and the service step commute with replacing it. -/
theorem traceIsNeverRead : Obligations.TraceIsNeverRead :=
  ⟨rfl, fun _ _ _ => exec_appends_trace, fun _ _ => serviceStep_appends_trace, agreeButTrace_step⟩

/-- Settles O1: the reset values are those of `State.reset`, and a reset edge is `blockReset`, which keeps the memory. -/
theorem resetStateValues : Obligations.ResetStateValues := by
  refine ⟨rfl, rfl, rfl, rfl, rfl, rfl, rfl, rfl, rfl, rfl, rfl, rfl, rfl, fun _ => rfl, ?_⟩
  intro s cw rest t hd ht addr
  rw [step_resetEdge hd] at ht
  obtain rfl := Host.Outcome.next.inj ht
  rw [State.blockReset_mem, State.withDriver_mem]

end Sys2Proof.Machine

/-! ## Proofs: the memory device -/

namespace Sys2Proof.Machine

/-- A read returns the byte last written to its address (20_memory.md R45, first half). -/
@[simp] theorem Memory.read_write_same (m : Memory) (addr : Address) (v : Data) :
    (m.write addr v).read addr = some v := by
  rw [Memory.read_write, if_pos rfl]

/-- A write leaves every other address as it was (20_memory.md R45, second half). -/
theorem Memory.read_write_of_ne (m : Memory) {addr1 addr2 : Address} (v : Data)
    (hne : addr1 ≠ addr2) : (m.write addr1 v).read addr2 = m.read addr2 := by
  rw [Memory.read_write, if_neg hne]

/-- Settles O50: the last write is what a read of its address returns, whatever was written before, and a read of another address does not see it. -/
theorem memoryWriteReadLaw : Obligations.MemoryWriteReadLaw :=
  ⟨fun m addr v1 v2 => ⟨m.read_write_same addr v1, (m.write addr v1).read_write_same addr v2⟩,
    fun m _ _ v hne => m.read_write_of_ne v hne⟩

end Sys2Proof.Machine

/-! ## Proofs: command words and the operation map -/

namespace Sys2Proof

/-! ### The words of an operation -/

/-- An operation's own fields decode to it (30_encoding.md R62). -/
theorem decodeFields_fields (i : Instr) : decodeFields i.fields = .ok i := by
  cases i with
  | tomask f => cases f <;> rfl
  | getf f => cases f <;> rfl
  | setf f v => cases f <;> cases v <;> rfl
  | _ => rfl

/-- A word decodes to an operation exactly when its three fields are the operation's. -/
theorem decode_ok_iff {cw : Word} {i : Instr} : decode cw = .ok i ↔ fieldsOf cw = i.fields :=
  ⟨decodeFields_ok, fun h => by rw [decode, h, decodeFields_fields]⟩

theorem fieldsOf_encode (i : Instr) : fieldsOf (encode i) = i.fields := by
  cases i with
  | tomask f => exact (Laws.FieldsAgree.tomask f).1
  | getf f => exact (Laws.FieldsAgree.getf f).1
  | setf f v => exact (Laws.FieldsAgree.setf f v).1
  | seta b => exact (Laws.FieldsAgree.seta b).1
  | service b => exact (Laws.FieldsAgree.service b).1
  | _ => decide

theorem decode_encode (i : Instr) : decode (encode i) = .ok i :=
  decode_ok_iff.mpr (fieldsOf_encode i)

/-- No bit of a legal word is ignored (30_encoding.md R61). -/
theorem encode_of_decode {cw : Word} {i : Instr} (h : decode cw = .ok i) : encode i = cw :=
  fieldsOf_injective ((fieldsOf_encode i).trans (decode_ok_iff.mp h).symm)

theorem encode_injective : Function.Injective encode := fun i j h =>
  Except.ok.inj (by rw [← decode_encode i, h, decode_encode j])

/-- A reserved word is one that decodes to no operation (30_encoding.md R71). -/
theorem decode_error_iff {cw : Word} :
    (∃ e, decode cw = .error e) ↔ ¬ ∃ i, decode cw = .ok i := by
  cases decode cw <;> simp

/-! ### Counting the legal words -/

/-- The operations that carry no byte (30_encoding.md R62). -/
def bytelessOperations : Finset Instr :=
  {.nop, .tomask .zro, .tomask .neg, .getf .zro, .getf .neg,
    .setf .zro false, .setf .zro true, .setf .neg false, .setf .neg true, .setup, .complete,
    .rdregPc, .rdregSp, .rdregA, .rdregSr, .rdregIr, .rdregMar, .rdregMdr,
    .rdregAddrBus, .rdregDataBus, .rdregRwb}

/-- Every operation with every operand: SETA and SERVICE take each of the 256 bytes. -/
def operations : Finset Instr :=
  bytelessOperations ∪ (Finset.univ.image Instr.seta ∪ Finset.univ.image Instr.service)

theorem mem_operations (i : Instr) : i ∈ operations := by
  cases i with
  | seta b => simp [operations]
  | service b => simp [operations]
  | tomask f => exact Finset.mem_union_left _ (by cases f <;> decide)
  | getf f => exact Finset.mem_union_left _ (by cases f <;> decide)
  | setf f v => exact Finset.mem_union_left _ (by cases f <;> cases v <;> decide)
  | _ => exact Finset.mem_union_left _ (by decide)

theorem fintypeCard_bitVec (n : Nat) : Fintype.card (BitVec n) = 2 ^ n := by
  rw [← FinEnum.card_eq_fintypeCard, FinEnum.card_bitVec]

/-- One operation for each byte. -/
theorem card_image_byte {mk : Data → Instr} (hmk : Function.Injective mk) :
    (Finset.univ.image mk).card = 256 := by
  rw [Finset.card_image_of_injective _ hmk, Finset.card_univ, fintypeCard_bitVec]; rfl

theorem card_operations : operations.card = 533 := by
  have hseta : (Finset.univ.image Instr.seta).card = 256 := card_image_byte fun _ _ => Instr.seta.inj
  have hservice : (Finset.univ.image Instr.service).card = 256 :=
    card_image_byte fun _ _ => Instr.service.inj
  have hbytes : Disjoint (Finset.univ.image Instr.seta) (Finset.univ.image Instr.service) := by
    simp [Finset.disjoint_left]
  have hrest : Disjoint bytelessOperations
      (Finset.univ.image Instr.seta ∪ Finset.univ.image Instr.service) := by
    simp [bytelessOperations]
  rw [operations, Finset.card_union_of_disjoint hrest, Finset.card_union_of_disjoint hbytes,
    hseta, hservice, show bytelessOperations.card = 21 by decide]

/-- The legal command words (30_encoding.md R62). -/
def legalWords : Finset Word := operations.image encode

theorem mem_legalWords {cw : Word} : cw ∈ legalWords ↔ ∃ i, decode cw = .ok i := by
  simp only [legalWords, Finset.mem_image, mem_operations, true_and]
  refine exists_congr fun i => ⟨?_, encode_of_decode⟩
  rintro rfl
  exact decode_encode i

theorem card_legalWords : legalWords.card = 533 := by
  rw [legalWords, Finset.card_image_of_injective _ encode_injective, card_operations]

theorem mem_compl_legalWords {cw : Word} : cw ∈ legalWordsᶜ ↔ ∃ e, decode cw = .error e := by
  rw [Finset.mem_compl, mem_legalWords, decode_error_iff]

/-- Every other word of the 65536 is reserved (30_encoding.md R70). -/
theorem card_compl_legalWords : legalWordsᶜ.card = 65003 := by
  rw [Finset.card_compl, fintypeCard_bitVec, card_legalWords]; rfl

/-! ### Field values -/

/-- A flag select has its three upper bits clear (30_encoding.md R63). -/
theorem exists_flagSel_iff {sel : BitVec 4} :
    (∃ f : StatusFlag, sel = f.sel) ↔ sel.extractLsb' 1 3 = 0 := by
  have bits : ∀ x : BitVec 4, (x = 0 ∨ x = 1) ↔ x.extractLsb' 1 3 = 0 := by decide
  rw [← bits]
  constructor
  · rintro ⟨_ | _, rfl⟩
    · exact .inl rfl
    · exact .inr rfl
  · rintro (rfl | rfl)
    · exact ⟨.zro, rfl⟩
    · exact ⟨.neg, rfl⟩

/-- SETF's boolean has its seven upper bits clear (30_encoding.md R67 (b)). -/
theorem exists_boolImm_iff : ∀ {imm8 : BitVec 8},
    (∃ v : Bool, imm8 = if v then 1 else 0) ↔ imm8.extractLsb' 1 7 = 0 := by
  decide

/-- The registers are selected by 0 to 9 (30_encoding.md R65). -/
theorem exists_registerSelect_iff {sel : BitVec 4} :
    (∃ i, registerSelect sel = .ok i) ↔ sel.toNat < 10 := by
  unfold registerSelect
  split <;> simp_all
  omega

/-! ### The reserved words -/

/-- The six cases (a) to (f) of 30_encoding.md R70, over the three fields of a word. -/
def CommandFields.Reserved (c : CommandFields) : Prop :=
  9 ≤ c.op.toNat ∨
  ((c.op = 0 ∨ c.op = 5 ∨ c.op = 7) ∧ (c.sel ≠ 0 ∨ c.imm8 ≠ 0)) ∨
  ((c.op = 1 ∨ c.op = 2) ∧ (c.sel.extractLsb' 1 3 ≠ 0 ∨ c.imm8 ≠ 0)) ∨
  (c.op = 3 ∧ (c.sel.extractLsb' 1 3 ≠ 0 ∨ c.imm8.extractLsb' 1 7 ≠ 0)) ∨
  ((c.op = 4 ∨ c.op = 6) ∧ c.sel ≠ 0) ∨
  (c.op = 8 ∧ (10 ≤ c.sel.toNat ∨ c.imm8 ≠ 0))

section Acceptance

variable {sel : BitVec 4} {imm8 : BitVec 8}

/-- NOP, SETUP, COMPLETE, SETA, SERVICE: `sel` is zero (30_encoding.md R61). -/
theorem exists_noSelect_ok {j : Instr} : (∃ i, noSelect sel j = .ok i) ↔ sel = 0 := by
  simp [noSelect_ok]

/-- An operation without an immediate: `imm8` is zero, and `sel` is accepted (30_encoding.md R61). -/
theorem exists_noImmediate_ok {r : Except ReservedWord Instr} :
    (∃ i, noImmediate imm8 r = .ok i) ↔ imm8 = 0 ∧ ∃ i, r = .ok i := by
  simp [noImmediate_ok]

theorem exists_withFlag_ok {mk : StatusFlag → Instr} :
    (∃ i, withFlag sel mk = .ok i) ↔ sel.extractLsb' 1 3 = 0 := by
  simp only [withFlag_ok, ← exists_flagSel_iff]
  rw [exists_comm]
  simp

theorem exists_setfBoolean_ok : (∃ i, setfBoolean imm8 (setfFlag sel) = .ok i) ↔
    sel.extractLsb' 1 3 = 0 ∧ imm8.extractLsb' 1 7 = 0 := by
  rw [← exists_flagSel_iff, ← exists_boolImm_iff]
  simp only [setfBoolean_ok]
  constructor
  · rintro ⟨i, f, v, hsel, himm, -⟩
    exact ⟨⟨f, hsel⟩, ⟨v, himm⟩⟩
  · rintro ⟨⟨f, hsel⟩, ⟨v, himm⟩⟩
    exact ⟨_, f, v, hsel, himm, rfl⟩

end Acceptance

/-- The operation codes 9 to 15 are not assigned (30_encoding.md R70 (a)). -/
theorem decodeFields_of_unassigned {c : CommandFields} (h : 9 ≤ c.op.toNat) :
    decodeFields c = .error .opUnassigned := by
  unfold decodeFields
  split
  case h_10 => rfl
  all_goals omega

/-- What the decoder accepts, operation code by operation code, is what R70 does not reserve. -/
theorem decodeFields_accepts_iff (c : CommandFields) :
    (∃ i, decodeFields c = .ok i) ↔ ¬ c.Reserved := by
  obtain ⟨op, sel, imm8⟩ := c
  have hop : ∀ x : BitVec 4, 9 ≤ x.toNat ∨
      x = 0 ∨ x = 1 ∨ x = 2 ∨ x = 3 ∨ x = 4 ∨ x = 5 ∨ x = 6 ∨ x = 7 ∨ x = 8 := by decide
  rcases hop op with hbig | rfl | rfl | rfl | rfl | rfl | rfl | rfl | rfl | rfl
  · simp [decodeFields_of_unassigned, CommandFields.Reserved, hbig]
  all_goals
    simp [decodeFields, CommandFields.Reserved, exists_noSelect_ok, exists_noImmediate_ok,
      exists_withFlag_ok, exists_setfBoolean_ok, exists_registerSelect_iff, and_comm]

/-- The reserved words are those whose fields fall in one of the six cases of 30_encoding.md R70. -/
theorem decode_error_iff_reserved {cw : Word} :
    (∃ e, decode cw = .error e) ↔ (fieldsOf cw).Reserved := by
  rw [decode_error_iff, decode, decodeFields_accepts_iff, not_not]

/-! ### The rows of the operation map -/

/-- A row selects a word when, field by field, the word's masked bits are the row's match. -/
theorem and_mask_eq_iff {cw mask bits : Word} :
    cw &&& mask = bits ↔
      (fieldsOf cw).op &&& (fieldsOf mask).op = (fieldsOf bits).op ∧
      (fieldsOf cw).sel &&& (fieldsOf mask).sel = (fieldsOf bits).sel ∧
      (fieldsOf cw).imm8 &&& (fieldsOf mask).imm8 = (fieldsOf bits).imm8 := by
  have hand : fieldsOf (cw &&& mask) = ⟨(fieldsOf cw).op &&& (fieldsOf mask).op,
      (fieldsOf cw).sel &&& (fieldsOf mask).sel,
      (fieldsOf cw).imm8 &&& (fieldsOf mask).imm8⟩ := by
    simp [fieldsOf, BitVec.extractLsb'_and]
  rw [← CommandFields.mk.injEq, ← hand]
  exact ⟨congrArg fieldsOf, fieldsOf_injective⟩

/-- Each operation has a row that selects its word (30_encoding.md R62). -/
theorem exists_row_of_operation (i : Instr) :
    ∃ r ∈ opcodeRows, encode i &&& r.mask = r.matchBits ∧ r.mnemonic = i.mnemonic := by
  cases i with
  | tomask f => cases f <;> decide
  | getf f => cases f <;> decide
  | setf f v => cases f <;> cases v <;> decide
  | seta b =>
    refine ⟨⟨"SETA", 0x4000, 0xFF00⟩, by decide, and_mask_eq_iff.mpr ?_, rfl⟩
    rw [fieldsOf_encode]
    simp [Instr.fields, fieldsOf]
  | service b =>
    refine ⟨⟨"SERVICE", 0x6000, 0xFF00⟩, by decide, and_mask_eq_iff.mpr ?_, rfl⟩
    rw [fieldsOf_encode]
    simp [Instr.fields, fieldsOf]
  | _ => decide

/-- The rows of 30_encoding.md R62 whose mask leaves operand bits free. -/
def operandRows : List OpcodeRow :=
  [⟨"TOMASK", 0x1000, 0xFEFF⟩, ⟨"GETF", 0x2000, 0xFEFF⟩, ⟨"SETF", 0x3000, 0xFEFE⟩,
   ⟨"SETA", 0x4000, 0xFF00⟩, ⟨"SERVICE", 0x6000, 0xFF00⟩]

theorem fullMask_or_mem_operandRows : ∀ r ∈ opcodeRows, r.mask = 0xFFFF ∨ r ∈ operandRows := by
  decide

/-- A row's match, all its operand bits zero, decodes to an operation of the row. -/
theorem exists_operation_of_matchBits {r : OpcodeRow} (hr : r ∈ opcodeRows) :
    ∃ i, decode r.matchBits = .ok i ∧ i.mnemonic = r.mnemonic := by
  have hmap : ∀ r ∈ opcodeRows, (decode r.matchBits).map Instr.mnemonic = .ok r.mnemonic := by
    decide
  specialize hmap r hr
  cases hd : decode r.matchBits with
  | error e => rw [hd] at hmap; cases hmap
  | ok i => rw [hd] at hmap; exact ⟨i, rfl, Except.ok.inj hmap⟩

/-- A mask that keeps every bit of a four-bit field. -/
theorem and_full_nibble (x : BitVec 4) : x &&& 15#4 = x := BitVec.and_allOnes

/-- A mask that keeps every bit of `imm8`. -/
theorem and_full_byte (x : BitVec 8) : x &&& 255#8 = x := BitVec.and_allOnes

/-- The mask of a flag select leaves `sel[0]` to the flag (30_encoding.md R63). -/
theorem exists_flagSel_of_mask {sel : BitVec 4} (h : sel &&& 0xE = 0) :
    ∃ f : StatusFlag, sel = f.sel := by
  have bits : ∀ x : BitVec 4, x &&& 0xE = 0 → x.extractLsb' 1 3 = 0 := by decide
  exact exists_flagSel_iff.mpr (bits sel h)

/-- The mask of SETF leaves `imm8[0]` to the boolean (30_encoding.md R67 (b)). -/
theorem exists_boolImm_of_mask : ∀ {imm8 : BitVec 8}, imm8 &&& 0xFE = 0 →
    ∃ v : Bool, imm8 = if v then 1 else 0 := by
  decide

/-- A word that a row with operand bits selects has the fields of an operation of the row. -/
theorem exists_fields_of_operand_row {cw : Word} {r : OpcodeRow} (hr : r ∈ operandRows)
    (h : cw &&& r.mask = r.matchBits) :
    ∃ i : Instr, fieldsOf cw = i.fields ∧ i.mnemonic = r.mnemonic := by
  rw [and_mask_eq_iff] at h
  generalize fieldsOf cw = c at h ⊢
  obtain ⟨op, sel, imm8⟩ := c
  simp only [operandRows, List.mem_cons, List.not_mem_nil, or_false] at hr
  rcases hr with rfl | rfl | rfl | rfl | rfl
  · obtain ⟨rfl, hsel, rfl⟩ : op = 1 ∧ sel &&& 0xE = 0 ∧ imm8 = 0 := by
      simpa [fieldsOf, and_full_nibble, and_full_byte] using h
    obtain ⟨f, rfl⟩ := exists_flagSel_of_mask hsel
    exact ⟨.tomask f, rfl, rfl⟩
  · obtain ⟨rfl, hsel, rfl⟩ : op = 2 ∧ sel &&& 0xE = 0 ∧ imm8 = 0 := by
      simpa [fieldsOf, and_full_nibble, and_full_byte] using h
    obtain ⟨f, rfl⟩ := exists_flagSel_of_mask hsel
    exact ⟨.getf f, rfl, rfl⟩
  · obtain ⟨rfl, hsel, himm⟩ : op = 3 ∧ sel &&& 0xE = 0 ∧ imm8 &&& 0xFE = 0 := by
      simpa [fieldsOf, and_full_nibble] using h
    obtain ⟨f, rfl⟩ := exists_flagSel_of_mask hsel
    obtain ⟨v, rfl⟩ := exists_boolImm_of_mask himm
    exact ⟨.setf f v, rfl, rfl⟩
  · obtain ⟨rfl, rfl⟩ : op = 4 ∧ sel = 0 := by
      simpa [fieldsOf, and_full_nibble] using h
    exact ⟨.seta imm8, rfl, rfl⟩
  · obtain ⟨rfl, rfl⟩ : op = 6 ∧ sel = 0 := by
      simpa [fieldsOf, and_full_nibble] using h
    exact ⟨.service imm8, rfl, rfl⟩

/-- A word that a row selects decodes to an operation of the row (30_encoding.md R62). -/
theorem exists_operation_of_row {cw : Word} {r : OpcodeRow} (hr : r ∈ opcodeRows)
    (h : cw &&& r.mask = r.matchBits) : ∃ i, decode cw = .ok i ∧ i.mnemonic = r.mnemonic := by
  rcases fullMask_or_mem_operandRows r hr with hmask | hoperand
  · have hcw : cw = r.matchBits := by
      rw [← h, hmask]
      exact BitVec.and_allOnes.symm
    rw [hcw]
    exact exists_operation_of_matchBits hr
  · simpa only [decode_ok_iff] using exists_fields_of_operand_row hoperand h

/-- A mnemonic names one row. -/
theorem row_eq_of_mnemonic_eq : ∀ r ∈ opcodeRows, ∀ r' ∈ opcodeRows,
    r.mnemonic = r'.mnemonic → r = r' := by
  decide

/-- The rows are disjoint: what both select decodes to one operation, which has one row (30_encoding.md R62). -/
theorem row_eq_of_both_select {cw : Word} {r r' : OpcodeRow} (hr : r ∈ opcodeRows)
    (hr' : r' ∈ opcodeRows) (h : cw &&& r.mask = r.matchBits) (h' : cw &&& r'.mask = r'.matchBits) :
    r = r' := by
  obtain ⟨i, hi, hm⟩ := exists_operation_of_row hr h
  obtain ⟨i', hi', hm'⟩ := exists_operation_of_row hr' h'
  obtain rfl : i = i' := Except.ok.inj (hi.symm.trans hi')
  exact row_eq_of_mnemonic_eq r hr r' hr' (hm.symm.trans hm')

/-- Each word that decodes has a row that selects it, with the operation's mnemonic (30_encoding.md R62). -/
theorem exists_row_of_decode {cw : Word} {i : Instr} (h : decode cw = .ok i) :
    ∃ r ∈ opcodeRows, cw &&& r.mask = r.matchBits ∧ r.mnemonic = i.mnemonic :=
  encode_of_decode h ▸ exists_row_of_operation i

/-- The reserved words are those that match no row (30_encoding.md R70). -/
theorem decode_error_iff_no_row {cw : Word} :
    (∃ e, decode cw = .error e) ↔ ∀ r ∈ opcodeRows, cw &&& r.mask ≠ r.matchBits := by
  rw [decode_error_iff]
  constructor
  · intro hnone r hr h
    obtain ⟨i, hi, -⟩ := exists_operation_of_row hr h
    exact hnone ⟨i, hi⟩
  · rintro hno ⟨i, hi⟩
    obtain ⟨r, hr, h, -⟩ := exists_row_of_decode hi
    exact hno r hr h

end Sys2Proof

namespace Sys2Proof.Machine

theorem runCommand_of_reserved {cw : Word} {e : ReservedWord} (h : decode cw = .error e) (s : State) :
    runCommand cw s = .fault (.illegalCommand cw) := by
  rw [runCommand, h]

/-- Settles O12: a word decodes exactly to the operation of the row that selects it, and the legal words are the encodings of the 533 operations. -/
theorem decoderFollowsTheOperationMap : Obligations.DecoderFollowsTheOperationMap :=
  ⟨fun _ _ h => ⟨decode_ok_iff.mp h, exists_row_of_decode h⟩,
    fun _ _ => exists_operation_of_row,
    fun _ _ _ => row_eq_of_both_select,
    legalWords.toList, legalWords.nodup_toList, by rw [Finset.length_toList, card_legalWords],
    fun _ => by rw [Finset.mem_toList, mem_legalWords]⟩

/-- Settles O14: the decoder refuses just the six cases, which are the complement of the 533 legal words. -/
theorem reservedWordsAreTheSixCases : Obligations.ReservedWordsAreTheSixCases :=
  ⟨fun _ => ⟨decode_error_iff_reserved, decode_error_iff_no_row⟩,
    ⟨legalWordsᶜ.toList, Finset.nodup_toList _, by rw [Finset.length_toList, card_compl_legalWords],
      fun _ => by rw [Finset.mem_toList, mem_compl_legalWords]⟩,
    fun _ _ s h => runCommand_of_reserved h s⟩

end Sys2Proof.Machine

/-! ## Proofs: the result port -/

namespace Sys2Proof.Machine

/-- An operation that goes on leaves a value on the result port just when it is one that returns a value (30_encoding.md R66). -/
theorem exec_result_isSome {i : Instr} {s t : State} (h : exec i s = .next t) :
    t.result.isSome = returnsValue i := by
  cases i with
  | setup =>
    obtain ⟨-, rfl⟩ := execSetup_next.mp h
    rfl
  | service b =>
    obtain ⟨-, rfl⟩ := execService_next.mp h
    rfl
  | complete =>
    obtain ⟨-, rfl⟩ := execComplete_next.mp h
    rfl
  | _ =>
    obtain rfl := Host.Outcome.next.inj h
    rfl

/-- A port that carries no value is driven to zero (30_encoding.md R66). -/
theorem State.pins_result_of_not_valid {s : State} (h : s.pins.resultValid = false) :
    s.pins.result = 0x0000 := by
  have hnone : s.result = none := Option.isNone_iff_eq_none.mp (Option.isSome_eq_false_iff.mp h)
  simp [State.pins, hnone]

/-- Settles O39: an operation's class decides whether the port is valid, and a port that is not valid is zero. -/
theorem resultPortIsDrivenByEveryCommand : Obligations.ResultPortIsDrivenByEveryCommand := by
  refine ⟨fun i s t h => ?_,
    fun _ => ⟨BitVec.toNat_setWidth_of_le (by decide), BitVec.toNat_setWidth_of_le (by decide)⟩,
    fun _ => rfl, rfl, rfl, rfl, rfl⟩
  have hvalid : t.pins.resultValid = returnsValue i := exec_result_isSome h
  exact ⟨hvalid, fun hnot => State.pins_result_of_not_valid (hvalid.trans hnot)⟩

end Sys2Proof.Machine

/-! ## Proofs: the flag operations -/

namespace Sys2Proof

/-- A row of the operation map selects just the words that decode to an operation of the row (30_encoding.md R62). -/
theorem exists_decode_mnemonic_iff {cw : Word} {r : OpcodeRow} (hr : r ∈ opcodeRows) :
    (∃ i, decode cw = .ok i ∧ i.mnemonic = r.mnemonic) ↔ cw &&& r.mask = r.matchBits := by
  refine ⟨?_, exists_operation_of_row hr⟩
  rintro ⟨i, hi, hm⟩
  obtain ⟨r', hr', hsel, hm'⟩ := exists_row_of_decode hi
  obtain rfl : r' = r := row_eq_of_mnemonic_eq r' hr' r hr (hm'.trans hm)
  exact hsel

/-- The words of the operations `mk x` are those their row selects, where the row's mnemonic names just these operations. -/
theorem exists_decode_iff_of_mnemonic {α : Type} {mk : α → Instr} {cw : Word} {r : OpcodeRow}
    (hr : r ∈ opcodeRows) (hmk : ∀ i : Instr, i.mnemonic = r.mnemonic ↔ ∃ x, mk x = i) :
    (∃ x, decode cw = .ok (mk x)) ↔ cw &&& r.mask = r.matchBits := by
  rw [← exists_decode_mnemonic_iff hr]
  constructor
  · rintro ⟨x, hx⟩
    exact ⟨mk x, hx, (hmk _).mpr ⟨x, rfl⟩⟩
  · rintro ⟨i, hi, hm⟩
    obtain ⟨x, rfl⟩ := (hmk i).mp hm
    exact ⟨x, hi⟩

theorem mnemonic_eq_tomask_iff (i : Instr) : i.mnemonic = "TOMASK" ↔ ∃ f, .tomask f = i := by
  cases i <;> simp [Instr.mnemonic]

theorem mnemonic_eq_getf_iff (i : Instr) : i.mnemonic = "GETF" ↔ ∃ f, .getf f = i := by
  cases i <;> simp [Instr.mnemonic]

theorem mnemonic_eq_setf_iff (i : Instr) :
    i.mnemonic = "SETF" ↔ ∃ x : StatusFlag × Bool, .setf x.1 x.2 = i := by
  cases i <;> simp [Instr.mnemonic]

theorem exists_decode_tomask_iff {cw : Word} :
    (∃ f, decode cw = .ok (.tomask f)) ↔ cw &&& 0xFEFF = 0x1000 :=
  exists_decode_iff_of_mnemonic (r := ⟨"TOMASK", 0x1000, 0xFEFF⟩) (by decide) mnemonic_eq_tomask_iff

theorem exists_decode_getf_iff {cw : Word} :
    (∃ f, decode cw = .ok (.getf f)) ↔ cw &&& 0xFEFF = 0x2000 :=
  exists_decode_iff_of_mnemonic (r := ⟨"GETF", 0x2000, 0xFEFF⟩) (by decide) mnemonic_eq_getf_iff

theorem exists_decode_setf_iff {cw : Word} :
    (∃ f v, decode cw = .ok (.setf f v)) ↔ cw &&& 0xFEFE = 0x3000 :=
  Prod.exists.symm.trans <|
    exists_decode_iff_of_mnemonic (r := ⟨"SETF", 0x3000, 0xFEFE⟩) (by decide) mnemonic_eq_setf_iff

end Sys2Proof

namespace Sys2Proof.Machine

/-! ### What each flag operation does -/

section Meanings

variable (s : State) (f : StatusFlag)

theorem exec_tomask : exec (.tomask f) s = .next (s.returns (.mask (mask f))) := rfl

theorem exec_getf : exec (.getf f) s = .next (s.returns (.flag (getFlag s.sr f))) := rfl

theorem exec_setf (v : Bool) : exec (.setf f v) s = .next (s.writeFlag f v).returnsNothing := rfl

/-- Setting a flag ORs its mask in (40_flag_ops.md R80). -/
theorem exec_setf_true :
    exec (.setf f true) s = .next { s with sr := s.sr ||| mask f, result := none } := rfl

/-- Clearing a flag ANDs the complement of its mask (40_flag_ops.md R80). -/
theorem exec_setf_false :
    exec (.setf f false) s = .next { s with sr := s.sr &&& ~~~mask f, result := none } := rfl

end Meanings

/-- An operation that only returns a value leaves every state element and shows the value at the port (30_encoding.md R66). -/
theorem next_of_exec_returns {i : Instr} {s : State} {v : PortValue} {w : Word}
    (h : exec i s = .next (s.returns v)) (hv : v.bits = w) :
    ∃ t, exec i s = .next t ∧ t = { s with result := t.result } ∧
      t.pins.result = w ∧ t.pins.resultValid = true :=
  ⟨s.returns v, h, rfl, hv, rfl⟩

/-- A flag at the port is its bit of `sr` (40_flag_ops.md R79). -/
theorem bits_flag_getFlag (sr : Flags) (f : StatusFlag) :
    (PortValue.flag (getFlag sr f)).bits =
      if sr.getLsbD (flagIndex f) then 0x0001 else 0x0000 := by
  rw [getFlag_eq]; rfl

/-- An operation that goes on hands its next state to the operations after it. -/
theorem execAll_cons_of_next {i : Instr} {is : List Instr} {s t : State}
    (h : exec i s = .next t) : execAll (i :: is) s = execAll is t := by
  rw [execAll, h]

/-! ### One flag at a time -/

theorem flagIndex_injective : Function.Injective flagIndex := by
  rintro (_ | _) (_ | _) h
  · rfl
  · cases h
  · cases h
  · rfl

/-- What is read of the flag just written. -/
@[simp] theorem getFlag_setFlag_same (sr : Flags) (f : StatusFlag) (v : Bool) :
    getFlag (setFlag sr f v) f = v := by
  rw [getFlag_eq, getLsbD_setFlag, if_pos rfl]

/-- Two status bytes agree outside a flag's mask when their seven other bits do. -/
theorem and_not_mask_eq {sr sr' : Flags} {f : StatusFlag}
    (h : ∀ n, n ≠ flagIndex f → sr.getLsbD n = sr'.getLsbD n) :
    sr &&& ~~~mask f = sr' &&& ~~~mask f := by
  apply BitVec.eq_of_getLsbD_eq
  intro n hn
  rw [mask_eq_twoPow]
  by_cases hf : n = flagIndex f
  · simp [hf]
  · simp [h n hf]

/-- Any sequence of SETF on one flag goes on and writes no other bit of `sr` (40_flag_ops.md R81). -/
theorem execAll_setf_keeps_other_bits (f : StatusFlag) (vs : List Bool) (s : State) :
    ∃ t, execAll (vs.map (Instr.setf f)) s = .next t ∧
      ∀ n, n ≠ flagIndex f → t.sr.getLsbD n = s.sr.getLsbD n := by
  induction vs generalizing s with
  | nil => exact ⟨s, rfl, fun _ _ => rfl⟩
  | cons v vs ih =>
    obtain ⟨t, ht, hbits⟩ := ih (s.writeFlag f v).returnsNothing
    refine ⟨t, ?_, fun n hn => ?_⟩
    · rw [List.map_cons, execAll_cons_of_next (exec_setf s f v), ht]
    · rw [hbits n hn, State.returnsNothing_sr, State.writeFlag_sr, getLsbD_setFlag, if_neg hn]

/-- Settles O29: the sequence keeps every bit but the flag's own, and the other flag is one of those. -/
theorem flagIsolation : Obligations.FlagIsolation := by
  intro s f g vs hne
  obtain ⟨t, ht, hbits⟩ := execAll_setf_keeps_other_bits f vs s
  have hother : getFlag t.sr g = getFlag s.sr g := by
    rw [getFlag_eq, getFlag_eq, hbits _ (flagIndex_injective.ne hne.symm)]
  refine ⟨t, ht, and_not_mask_eq hbits, _, _, exec_getf t g, exec_getf s g, ?_⟩
  rw [State.returns_result, State.returns_result, hother]

/-- Settles O30: GETF reads the bit that SETF has just written. -/
theorem flagRoundTrip : Obligations.FlagRoundTrip := by
  intro s f v
  refine ⟨_, _, exec_setf s f v, exec_getf _ f, ?_⟩
  rw [State.returns_result, State.returnsNothing_sr, State.writeFlag_sr, getFlag_setFlag_same]

/-- Settles O20: TOMASK returns the mask and nothing of the state enters it. -/
theorem tomaskReturnsTheMask : Obligations.TomaskReturnsTheMask :=
  ⟨decode_encode (.tomask .zro), decode_encode (.tomask .neg), fun _ => exists_decode_tomask_iff,
    fun s => ⟨next_of_exec_returns (exec_tomask s .zro) rfl,
      next_of_exec_returns (exec_tomask s .neg) rfl⟩⟩

/-- Settles O21: GETF returns the one bit of `sr` that is its flag. -/
theorem getfReturnsTheFlagBit : Obligations.GetfReturnsTheFlagBit :=
  ⟨decode_encode (.getf .zro), decode_encode (.getf .neg), fun _ => exists_decode_getf_iff,
    fun s => ⟨next_of_exec_returns (exec_getf s .zro) (bits_flag_getFlag s.sr .zro),
      next_of_exec_returns (exec_getf s .neg) (bits_flag_getFlag s.sr .neg)⟩⟩

/-- Settles O22: each SETF is one OR or one AND on `sr`. -/
theorem setfWritesOneFlag : Obligations.SetfWritesOneFlag :=
  ⟨decode_encode (.setf .zro false), decode_encode (.setf .zro true),
    decode_encode (.setf .neg false), decode_encode (.setf .neg true),
    fun _ => exists_decode_setf_iff,
    fun s => ⟨exec_setf_true s .zro, exec_setf_false s .zro,
      exec_setf_true s .neg, exec_setf_false s .neg⟩⟩

end Sys2Proof.Machine

/-! ## Proofs: the register file -/

namespace Sys2Proof

/-! ### The words of NOP, SETA and RDREG -/

/-- An operation without operands has one word, which the mask `0xFFFF` compares bit for bit (30_encoding.md R62). -/
theorem decode_ok_iff_full_mask {cw : Word} {i : Instr} :
    decode cw = .ok i ↔ cw &&& 0xFFFF = encode i := by
  rw [show cw &&& 0xFFFF = cw from BitVec.and_allOnes]
  constructor
  · exact fun h => (encode_of_decode h).symm
  · rintro rfl
    exact decode_encode i

/-- The words of an operation code that takes a byte and no select: the mask `0xFF00` leaves `imm8` to the byte (30_encoding.md R61, R67). -/
theorem fieldsOf_eq_byte_operation_iff {cw bits : Word} {op : BitVec 4} {x : Data}
    (hbits : fieldsOf bits = ⟨op, 0, 0⟩) :
    fieldsOf cw = ⟨op, 0, x⟩ ↔ cw &&& 0xFF00 = bits ∧ cw.setWidth 8 = x := by
  have hmask : fieldsOf 0xFF00 = ⟨15, 15, 0⟩ := by decide
  have himm : cw.setWidth 8 = (fieldsOf cw).imm8 := BitVec.setWidth_eq_extractLsb' (by decide)
  rw [and_mask_eq_iff, himm, hbits, hmask]
  generalize fieldsOf cw = c
  obtain ⟨op', sel', imm8'⟩ := c
  simp [and_full_nibble, and_assoc]

theorem decode_seta_iff {cw : Word} {x : Data} :
    decode cw = .ok (.seta x) ↔ cw &&& 0xFF00 = 0x4000 ∧ cw.setWidth 8 = x :=
  decode_ok_iff.trans (fieldsOf_eq_byte_operation_iff (by decide))

/-- The ten RDREG, in the order of their selectors (30_encoding.md R65). -/
def registerReads : List Instr :=
  [.rdregPc, .rdregSp, .rdregA, .rdregSr, .rdregIr, .rdregMar, .rdregMdr, .rdregAddrBus,
    .rdregDataBus, .rdregRwb]

/-- RDREG of selector `n` has the word `0x8000 + n * 0x0100` (41_register_file.md R88). -/
theorem encode_of_registerReads {n : Nat} {i : Instr} (h : registerReads[n]? = some i) :
    encode i = BitVec.ofNat 16 (0x8000 + n * 0x0100) := by
  have hwords : registerReads.map encode =
      (List.range 10).map fun n => BitVec.ofNat 16 (0x8000 + n * 0x0100) := by decide
  obtain ⟨hn, -⟩ := List.getElem?_eq_some_iff.mp h
  have hword := congrArg (·[n]?) hwords
  simpa [h, List.getElem?_range (show n < 10 from hn)] using hword

end Sys2Proof

namespace Sys2Proof.Machine

/-! ### What each register-file operation does -/

section Meanings

variable (s : State)

theorem exec_nop : exec .nop s = .next s.returnsNothing := rfl

theorem exec_seta (x : Data) : exec (.seta x) s = .next (s.loadA x).returnsNothing := rfl

theorem exec_rdregPc : exec .rdregPc s = .next (s.returns (.word s.pc)) := rfl
theorem exec_rdregSp : exec .rdregSp s = .next (s.returns (.word s.sp)) := rfl
theorem exec_rdregA : exec .rdregA s = .next (s.returns (.byte s.a)) := rfl
theorem exec_rdregSr : exec .rdregSr s = .next (s.returns (.byte s.sr)) := rfl
theorem exec_rdregIr : exec .rdregIr s = .next (s.returns (.byte s.ir)) := rfl
theorem exec_rdregMar : exec .rdregMar s = .next (s.returns (.word s.mar)) := rfl
theorem exec_rdregMdr : exec .rdregMdr s = .next (s.returns (.byte s.mdr)) := rfl
theorem exec_rdregAddrBus : exec .rdregAddrBus s = .next (s.returns (.word s.addrBus)) := rfl
theorem exec_rdregDataBus : exec .rdregDataBus s = .next (s.returns (.byte s.dataBus)) := rfl
theorem exec_rdregRwb : exec .rdregRwb s = .next (s.returns (.mode s.rwb)) := rfl

end Meanings

/-! ### What RDREG shows at the port -/

/-- A direction at the port is 1 for READ and 0 for WRITE (30_encoding.md R64, R66). -/
theorem bits_mode (m : BusMode) : (PortValue.mode m).bits = if m = .read then 0x0001 else 0x0000 := by
  cases m <;> rfl

/-- The zero byte is extended to the zero word (30_encoding.md R66). -/
theorem bits_byte_of_zero {b : Byte} (hb : b = 0) : (PortValue.byte b).bits = 0 := by
  rw [hb]; rfl

/-- The port after an operation that returns a value holds the value's 16-bit form (30_encoding.md R66). -/
theorem pins_result_of_exec_returns {i : Instr} {s t : State} {v : PortValue} {w : Word}
    (h : exec i s = .next (s.returns v)) (hv : v.bits = w) (ht : exec i s = .next t) :
    t.pins.result = w := by
  rw [h] at ht
  obtain rfl := Host.Outcome.next.inj ht
  exact hv

/-- Settles O24: each RDREG is one `returns` of its element, so it writes nothing and shows the element's 16-bit form; the invariant makes five of the elements zero. -/
theorem rdregReturnsTheElement : Obligations.RdregReturnsTheElement := by
  refine ⟨fun cw n i h => ?_, fun s => ?_, fun s t hinv => ?_⟩
  · rw [decode_ok_iff_full_mask, encode_of_registerReads h]
  · simp only [List.forall_mem_cons]
    exact ⟨next_of_exec_returns (exec_rdregPc s) rfl, next_of_exec_returns (exec_rdregSp s) rfl,
      next_of_exec_returns (exec_rdregA s) rfl, next_of_exec_returns (exec_rdregSr s) rfl,
      next_of_exec_returns (exec_rdregIr s) rfl, next_of_exec_returns (exec_rdregMar s) rfl,
      next_of_exec_returns (exec_rdregMdr s) rfl, next_of_exec_returns (exec_rdregAddrBus s) rfl,
      next_of_exec_returns (exec_rdregDataBus s) rfl,
      next_of_exec_returns (exec_rdregRwb s) (bits_mode s.rwb), List.forall_mem_nil _⟩
  · simp only [List.forall_mem_cons]
    exact ⟨pins_result_of_exec_returns (exec_rdregPc s) hinv.pcZero,
      pins_result_of_exec_returns (exec_rdregSp s) hinv.spZero,
      pins_result_of_exec_returns (exec_rdregIr s) (bits_byte_of_zero hinv.irZero),
      pins_result_of_exec_returns (exec_rdregMar s) hinv.marZero,
      pins_result_of_exec_returns (exec_rdregMdr s) (bits_byte_of_zero hinv.mdrZero),
      List.forall_mem_nil _⟩

/-- Settles O19: NOP has the one word `0x0000`, and only clears the result port. -/
theorem nopLeavesTheState : Obligations.NopLeavesTheState :=
  ⟨fun _ => decode_ok_iff_full_mask, exec_nop⟩

/-! ### The flags of a loaded byte -/

section LoadedFlags

variable (sr : Flags) (x : Data)

/-- The load leaves the ZRO decoder output in bit 1 of `sr` (41_register_file.md R85). -/
theorem getLsbD_refreshFlags_zro : (refreshFlags sr x).getLsbD 1 = zroOf x :=
  getLsbD_refreshFlags sr x 1

/-- The load leaves the NEG decoder output in bit 7 of `sr` (41_register_file.md R85). -/
theorem getLsbD_refreshFlags_neg : (refreshFlags sr x).getLsbD 7 = negOf x :=
  getLsbD_refreshFlags sr x 7

/-- The load keeps the reserved bits of `sr` (41_register_file.md R86). -/
theorem getLsbD_refreshFlags_of_ne {n : Nat} (hzro : n ≠ 1) (hneg : n ≠ 7) :
    (refreshFlags sr x).getLsbD n = sr.getLsbD n := by
  rw [getLsbD_refreshFlags, if_neg hneg, if_neg hzro]

theorem getFlag_refreshFlags_zro : getFlag (refreshFlags sr x) .zro = zroOf x :=
  (getFlag_eq _ .zro).trans (getLsbD_refreshFlags_zro sr x)

theorem getFlag_refreshFlags_neg : getFlag (refreshFlags sr x) .neg = negOf x :=
  (getFlag_eq _ .neg).trans (getLsbD_refreshFlags_neg sr x)

/-- Bit 7 is set in the upper half of the bytes (41_register_file.md R87). -/
theorem negOf_eq_decide : negOf x = decide (128 ≤ x.toNat) :=
  (BitVec.msb_eq_getLsbD_last x).symm.trans (BitVec.msb_eq_decide x)

end LoadedFlags

/-- Settles O23: SETA is the accumulator load of its byte, whose flags are read off bit by bit. -/
theorem setaLoadsAndSetsFlags : Obligations.SetaLoadsAndSetsFlags :=
  ⟨fun _ _ => decode_seta_iff, fun x s => ⟨_, exec_seta s x, rfl, getLsbD_refreshFlags_zro s.sr x,
    getLsbD_refreshFlags_neg s.sr x, fun _ => getLsbD_refreshFlags_of_ne s.sr x⟩⟩

/-- Settles O35: three accumulator loads from reset, each evaluated. -/
theorem flagTransitionScenario : Obligations.FlagTransitionScenario :=
  ⟨_, _, _, exec_seta _ 0, rfl, by decide, exec_seta _ 128, rfl, by decide,
    exec_seta _ 0, rfl, by decide⟩

/-! ### How many bytes set each flag -/

section Counts

variable {n : Nat}

theorem zroOf_ofNat (hn : n < 256) : zroOf (BitVec.ofNat 8 n) = decide (n = 0) := by
  rw [zroOf, Bool.eq_iff_iff, beq_iff_eq, decide_eq_true_iff, ← BitVec.toNat_inj,
    BitVec.toNat_ofNat, Nat.mod_eq_of_lt hn]
  rfl

theorem negOf_ofNat (hn : n < 256) : negOf (BitVec.ofNat 8 n) = decide (128 ≤ n) := by
  rw [negOf_eq_decide, BitVec.toNat_ofNat, Nat.mod_eq_of_lt hn]

/-- Numbers below a bound are counted by the set of those that pass the test. -/
theorem length_filter_range_eq_card {p : Nat → Bool} {t : Finset Nat}
    (ht : ∀ k, k ∈ t ↔ k < n ∧ p k = true) : ((List.range n).filter p).length = t.card := by
  rw [← List.toFinset_card_of_nodup (List.nodup_range.filter p)]
  congr 1
  ext k
  simp [ht]

/-- The bytes counted by a test of the two flag outputs, given the numbers that pass it. -/
theorem length_filter_flags_eq_card {p : Bool → Bool → Bool} {t : Finset Nat}
    (ht : ∀ k, k ∈ t ↔ k < 256 ∧ p (decide (k = 0)) (decide (128 ≤ k)) = true) :
    ((List.range 256).filter fun k =>
      p (zroOf (BitVec.ofNat 8 k)) (negOf (BitVec.ofNat 8 k))).length = t.card := by
  refine length_filter_range_eq_card fun k => (ht k).trans (and_congr_right fun hk => ?_)
  rw [zroOf_ofNat hk, negOf_ofNat hk]

end Counts

/-- Only the byte 0 sets ZRO (41_register_file.md R87). -/
theorem length_filter_zroOf : ((List.range 256).filter fun k => zroOf (BitVec.ofNat 8 k)).length = 1 :=
  length_filter_flags_eq_card (p := fun z _ => z) (t := {0}) fun k => by simp; omega

/-- The bytes from 128 on set NEG (41_register_file.md R87). -/
theorem length_filter_negOf : ((List.range 256).filter fun k => negOf (BitVec.ofNat 8 k)).length = 128 :=
  length_filter_flags_eq_card (p := fun _ m => m) (t := Finset.Ico 128 256) fun k => by simp; omega

/-- The bytes 1 to 127 set neither flag (41_register_file.md R87). -/
theorem length_filter_neither_flag : ((List.range 256).filter fun k =>
    !zroOf (BitVec.ofNat 8 k) && !negOf (BitVec.ofNat 8 k)).length = 127 :=
  length_filter_flags_eq_card (p := fun z m => !z && !m) (t := Finset.Ico 1 128) fun k => by simp; omega

/-- No byte sets both flags (41_register_file.md R86 (e), R87). -/
theorem length_filter_both_flags : ((List.range 256).filter fun k =>
    zroOf (BitVec.ofNat 8 k) && negOf (BitVec.ofNat 8 k)).length = 0 :=
  length_filter_flags_eq_card (p := fun z m => z && m) (t := ∅) fun k => by simp; omega

/-- Settles O33: GETF reads the flag the load has just written, and the counts are those of the numbers below 256. -/
theorem accumulatorFlagCouplingLaw : Obligations.AccumulatorFlagCouplingLaw := by
  refine ⟨fun s x => ?_, length_filter_zroOf, length_filter_negOf, length_filter_neither_flag,
    length_filter_both_flags⟩
  refine ⟨_, _, _, exec_seta s x, exec_getf _ .zro, ?_, exec_getf _ .neg, ?_⟩
  · rw [State.returns_result, State.returnsNothing_sr, State.loadA_sr, getFlag_refreshFlags_zro, zroOf]
  · rw [State.returns_result, State.returnsNothing_sr, State.loadA_sr, getFlag_refreshFlags_neg,
      negOf_eq_decide]

end Sys2Proof.Machine

/-! ## Proofs: the bus cycle -/

namespace Sys2Proof

theorem decode_service_iff {cw : Word} {b : Data} :
    decode cw = .ok (.service b) ↔ cw &&& 0xFF00 = 0x6000 ∧ cw.setWidth 8 = b :=
  decode_ok_iff.trans (fieldsOf_eq_byte_operation_iff (by decide))

end Sys2Proof

namespace Sys2Proof.Machine

/-! ### What each bus operation does, in its phase and out of it -/

section Meanings

variable {s : State}

theorem exec_setup_of_idle (hp : s.phase = .idle) :
    exec .setup s = .next ((s.assertDrive s.setupDrive).enter .asserted).returnsNothing :=
  execSetup_next.mpr ⟨hp, rfl⟩

theorem exec_service_of_asserted (b : Data) (hp : s.phase = .asserted) :
    exec (.service b) s = .next ((s.acceptByte b).enter .serviced).returnsNothing :=
  execService_next.mpr ⟨hp, rfl⟩

theorem exec_complete_of_serviced (hp : s.phase = .serviced) :
    exec .complete s = .next ((s.loadA s.dataBus).enter .idle).returnsNothing :=
  execComplete_next.mpr ⟨hp, rfl⟩

/-- A bus operation out of its phase raises (42_bus_cycle.md R94). -/
theorem exec_of_phase_ne {i : Instr} {op : BusOp} (hop : cycleOp i = some op)
    (hp : s.phase ≠ phaseOf op) : exec i s = .fault (.protocolViolation op s.phase) := by
  cases i <;> cases hop <;> exact State.inPhase_fault.mpr (.inl ⟨hp, rfl⟩)

/-- On READ the block takes the byte from the bus (42_bus_cycle.md R99). -/
theorem State.acceptByte_of_read (b : Data) (hm : s.rwb = .read) : s.acceptByte b = s.driveData b := by
  rw [State.acceptByte, hm]

/-- On WRITE the block ignores the byte (42_bus_cycle.md R99). -/
theorem State.acceptByte_of_write (b : Data) (hm : s.rwb = .write) : s.acceptByte b = s := by
  rw [State.acceptByte, hm]

/-- The reference `SetupSource` answers its one triple in every state (42_bus_cycle.md R98). -/
theorem State.setupDrive_of_reference (h : s.config.setupSource = referenceConfig.setupSource) :
    s.setupDrive = referenceDrive := by
  rw [State.setupDrive, h]; rfl

/-- The byte of a READ service is memory's, or where memory has none the fill policy's (42_bus_cycle.md R100). -/
theorem serviceByte_eq_some {b : Data} : s.serviceByte = some b ↔
    s.mem.read s.addrBus = some b ∨
      (s.mem.read s.addrBus = none ∧ s.config.absentRead = .fill b) := by
  unfold State.serviceByte
  cases s.mem.read s.addrBus <;> cases s.config.absentRead <;> simp

theorem serviceStep_of_read {b : Data} (hp : s.phase = .asserted) (hm : s.rwb = .read)
    (hb : s.serviceByte = some b) :
    serviceStep s = .next ((s.driveData b).enter .serviced).returnsNothing :=
  serviceStep_next.mpr ⟨hp, .inl ⟨hm, b, hb, rfl⟩⟩

theorem serviceStep_of_write (hp : s.phase = .asserted) (hm : s.rwb = .write) :
    serviceStep s = .next ((s.store s.addrBus s.dataBus).enter .serviced).returnsNothing :=
  serviceStep_next.mpr ⟨hp, .inr ⟨hm, rfl⟩⟩

/-- The flags fit the accumulator right after a load (10_state.md R26). -/
theorem coupled_of_sr_eq_refreshFlags {sr : Flags} (h : s.sr = refreshFlags sr s.a) : Coupled s := by
  rw [Coupled, h]
  exact ⟨getFlag_refreshFlags_zro sr s.a, getFlag_refreshFlags_neg sr s.a⟩

end Meanings

/-- Settles O25: in IDLE, SETUP is the three line writes of its triple; the phase gate raises elsewhere. -/
theorem setupAssertsTheTransaction : Obligations.SetupAssertsTheTransaction := by
  refine ⟨fun _ => decode_ok_iff_full_mask, fun s hp => ?_, fun s hp hsrc => ?_,
    fun _ => exec_of_phase_ne (op := .setup) rfl⟩
  · rw [exec_setup_of_idle hp, State.assertDrive_eq]; rfl
  · have hdrive : s.setupDrive = referenceDrive := State.setupDrive_of_reference hsrc
    rw [exec_setup_of_idle hp, hdrive]
    exact ⟨_, rfl, rfl, rfl, rfl⟩

/-- Settles O26: in ASSERTED, SERVICE accepts its byte by direction; the phase gate raises elsewhere. -/
theorem serviceTakesTheByte : Obligations.ServiceTakesTheByte := by
  refine ⟨fun _ _ => decode_service_iff, fun b s hp hm => ?_, fun b s hp hm => ?_,
    fun _ _ => exec_of_phase_ne (op := .service) rfl⟩
  · rw [exec_service_of_asserted b hp, State.acceptByte_of_read b hm]; rfl
  · rw [exec_service_of_asserted b hp, State.acceptByte_of_write b hm]; rfl

/-- Settles O27: in SERVICED, COMPLETE is the accumulator load of `data_bus`; the phase gate raises elsewhere. -/
theorem completeLoadsTheDataBus : Obligations.CompleteLoadsTheDataBus :=
  ⟨fun _ => decode_ok_iff_full_mask,
    fun s hp => ⟨_, exec_complete_of_serviced hp, rfl, getLsbD_refreshFlags_zro s.sr s.dataBus,
      getLsbD_refreshFlags_neg s.sr s.dataBus, fun _ => getLsbD_refreshFlags_of_ne s.sr s.dataBus,
      coupled_of_sr_eq_refreshFlags (sr := s.sr) rfl⟩,
    fun _ => exec_of_phase_ne (op := .complete) rfl⟩

/-- Settles O28: the service step by direction, by what memory holds, and by the absent-read policy. -/
theorem serviceStepMakesTheOneAccess : Obligations.ServiceStepMakesTheOneAccess := by
  refine ⟨fun s hp hm => ⟨_, serviceStep_of_write hp hm, rfl, fun addr => ?_⟩,
    fun s b hp hm hb => serviceStep_of_read hp hm (serviceByte_eq_some.mpr (.inl hb)),
    fun s b hp hm hnone hfill =>
      serviceStep_of_read hp hm (serviceByte_eq_some.mpr (.inr ⟨hnone, hfill⟩)),
    fun s hp hm hnone hfatal =>
      serviceStep_fault.mpr (.inr ⟨hp, hm, serviceByte_eq_none.mpr ⟨hnone, hfatal⟩, rfl⟩),
    fun s hp => serviceStep_fault.mpr (.inl ⟨hp, rfl⟩)⟩
  simp [Memory.read_write, eq_comm]

/-! ### A whole cycle, step by step -/

section CycleSteps

variable {s t : State} {rest : List DriverEvent}

/-- A step that takes an operation's command is the operation, with what it raises recorded (30_encoding.md R59). -/
theorem step_of_command {i : Instr} (hf : s.fault = none)
    (hd : s.driver = .edge false (encode i) :: rest) :
    step s = settle (s.withDriver rest) (exec i (s.withDriver rest)) := by
  rw [step_event hf hd, runEvent, runCommand, decode_encode]

theorem step_of_exec_next {i : Instr} (hf : s.fault = none)
    (hd : s.driver = .edge false (encode i) :: rest) (h : exec i (s.withDriver rest) = .next t) :
    step s = .next t := by
  rw [step_of_command hf hd, h, settle]

theorem step_of_exec_fault {i : Instr} {f : Fault} (hf : s.fault = none)
    (hd : s.driver = .edge false (encode i) :: rest) (h : exec i (s.withDriver rest) = .fault f) :
    step s = .next ((s.withDriver rest).raise f) := by
  rw [step_of_command hf hd, h, settle]

theorem step_of_serviceStep_next (hf : s.fault = none) (hd : s.driver = .svc :: rest)
    (h : serviceStep (s.withDriver rest) = .next t) : step s = .next t := by
  rw [step_event hf hd, runEvent, h, settle]

/-- What SETUP leaves of an idle machine. -/
def State.afterSetup (s : State) (rest : List DriverEvent) : State :=
  (((s.withDriver rest).assertDrive s.setupDrive).enter .asserted).returnsNothing

/-- What the service step leaves of a WRITE cycle. -/
def State.afterWriteService (s : State) (rest : List DriverEvent) : State :=
  (((s.withDriver rest).store s.addrBus s.dataBus).enter .serviced).returnsNothing

/-- What COMPLETE leaves of a serviced cycle. -/
def State.afterComplete (s : State) (rest : List DriverEvent) : State :=
  (((s.withDriver rest).loadA s.dataBus).enter .idle).returnsNothing

section Fields

variable (s : State) (rest : List DriverEvent)

@[simp] theorem State.afterSetup_sr : (s.afterSetup rest).sr = s.sr := rfl
@[simp] theorem State.afterSetup_addrBus : (s.afterSetup rest).addrBus = s.setupDrive.addr := rfl
@[simp] theorem State.afterSetup_dataBus : (s.afterSetup rest).dataBus = s.setupDrive.data := rfl
@[simp] theorem State.afterSetup_rwb : (s.afterSetup rest).rwb = s.setupDrive.mode := rfl
@[simp] theorem State.afterSetup_phase : (s.afterSetup rest).phase = .asserted := rfl
@[simp] theorem State.afterSetup_fault : (s.afterSetup rest).fault = s.fault := rfl
@[simp] theorem State.afterSetup_mem : (s.afterSetup rest).mem = s.mem := rfl
@[simp] theorem State.afterSetup_driver : (s.afterSetup rest).driver = rest := rfl

@[simp] theorem State.afterWriteService_sr : (s.afterWriteService rest).sr = s.sr := rfl
@[simp] theorem State.afterWriteService_addrBus : (s.afterWriteService rest).addrBus = s.addrBus := rfl
@[simp] theorem State.afterWriteService_dataBus : (s.afterWriteService rest).dataBus = s.dataBus := rfl
@[simp] theorem State.afterWriteService_rwb : (s.afterWriteService rest).rwb = s.rwb := rfl
@[simp] theorem State.afterWriteService_phase : (s.afterWriteService rest).phase = .serviced := rfl
@[simp] theorem State.afterWriteService_fault : (s.afterWriteService rest).fault = s.fault := rfl
@[simp] theorem State.afterWriteService_mem :
    (s.afterWriteService rest).mem = s.mem.write s.addrBus s.dataBus := rfl
@[simp] theorem State.afterWriteService_driver : (s.afterWriteService rest).driver = rest := rfl

@[simp] theorem State.afterComplete_a : (s.afterComplete rest).a = s.dataBus := rfl
@[simp] theorem State.afterComplete_sr :
    (s.afterComplete rest).sr = refreshFlags s.sr s.dataBus := rfl
@[simp] theorem State.afterComplete_addrBus : (s.afterComplete rest).addrBus = s.addrBus := rfl
@[simp] theorem State.afterComplete_dataBus : (s.afterComplete rest).dataBus = s.dataBus := rfl
@[simp] theorem State.afterComplete_rwb : (s.afterComplete rest).rwb = s.rwb := rfl
@[simp] theorem State.afterComplete_phase : (s.afterComplete rest).phase = .idle := rfl
@[simp] theorem State.afterComplete_fault : (s.afterComplete rest).fault = s.fault := rfl
@[simp] theorem State.afterComplete_mem : (s.afterComplete rest).mem = s.mem := rfl
@[simp] theorem State.afterComplete_driver : (s.afterComplete rest).driver = rest := rfl

end Fields

theorem step_setup (hf : s.fault = none) (hp : s.phase = .idle)
    (hd : s.driver = .edge false 0x5000 :: rest) : step s = .next (s.afterSetup rest) :=
  step_of_exec_next (i := .setup) hf hd (exec_setup_of_idle hp)

theorem step_svc_write (hf : s.fault = none) (hp : s.phase = .asserted) (hm : s.rwb = .write)
    (hd : s.driver = .svc :: rest) : step s = .next (s.afterWriteService rest) :=
  step_of_serviceStep_next hf hd (serviceStep_of_write hp hm)

theorem step_complete (hf : s.fault = none) (hp : s.phase = .serviced)
    (hd : s.driver = .edge false 0x7000 :: rest) : step s = .next (s.afterComplete rest) :=
  step_of_exec_next (i := .complete) hf hd (exec_complete_of_serviced hp)

end CycleSteps

/-- The three steps of a WRITE cycle, each from the state the last one leaves. -/
theorem runSteps_writeCycle {s : State} {rest : List DriverEvent} (hf : s.fault = none)
    (hp : s.phase = .idle) (hm : s.setupDrive.mode = .write)
    (hd : s.driver = .edge false 0x5000 :: .svc :: .edge false 0x7000 :: rest) :
    runSteps 3 s = .next (((s.afterSetup (.svc :: .edge false 0x7000 :: rest)).afterWriteService
      (.edge false 0x7000 :: rest)).afterComplete rest) := by
  rw [runSteps_succ_of_next (step_setup hf hp hd),
    runSteps_succ_of_next (step_svc_write (by simpa) (by simp) (by simpa) (State.afterSetup_driver _ _)),
    runSteps_succ_of_next (step_complete (by simpa) (by simp) (State.afterWriteService_driver _ _)),
    runSteps_zero]

/-- Settles O45: the WRITE service keeps the `data_bus` that SETUP drove, so COMPLETE loads the byte that was stored. -/
theorem writeCycleStoresThenLoads : Obligations.WriteCycleStoresThenLoads := by
  intro s rest hf hp hd hm
  refine ⟨_, runSteps_writeCycle hf hp hm hd, fun addr => ?_, ?_⟩
  · simp [Memory.read_write, State.setupDrive, eq_comm]
  · have hzro := getLsbD_refreshFlags_zro s.sr s.setupDrive.data
    have hneg := getLsbD_refreshFlags_neg s.sr s.setupDrive.data
    simpa [Completed, hf, ← hm, State.setupDrive, zroOf, negOf] using And.intro hzro hneg

/-- Settles O48: the three steps of CYCLE from reset, each evaluated. -/
theorem referenceCycleScenario : Obligations.ReferenceCycleScenario :=
  ⟨_, _, _, step_setup rfl rfl rfl, rfl, rfl, rfl, step_svc_write rfl rfl rfl rfl, by decide,
    step_complete rfl rfl rfl, rfl, by decide, by decide⟩

/-! ### The order of the driven lines in the trace -/

/-- Only SETUP drives the address and the direction (42_bus_cycle.md R97). -/
theorem exec_drives_data_only {i : Instr} {s t : State} (hi : i ≠ .setup) (h : exec i s = .next t) :
    t.trace = s.trace ∨ ∃ b, t.trace = s.trace ++ [.driveData b] := by
  cases i with
  | setup => exact absurd rfl hi
  | service b =>
    obtain ⟨-, rfl⟩ := execService_next.mp h
    cases hm : s.rwb with
    | read => rw [State.acceptByte_of_read b hm]; exact .inr ⟨b, rfl⟩
    | write => rw [State.acceptByte_of_write b hm]; exact .inl rfl
  | complete =>
    obtain ⟨-, rfl⟩ := execComplete_next.mp h
    exact .inl rfl
  | _ =>
    obtain rfl := Host.Outcome.next.inj h
    exact .inl rfl

/-- Each direction in the trace directly follows an address and a data byte (42_bus_cycle.md R97). -/
def DirectionsFollow (es : List BusEvent) : Prop :=
  ∀ pre md post, es = pre ++ .driveMode md :: post →
    ∃ pre' ad dt, pre = pre' ++ [.driveAddr ad, .driveData dt]

theorem directionsFollow_nil : DirectionsFollow [] := by
  intro pre md post h
  simp at h

/-- A serviced byte in front changes nothing. -/
theorem DirectionsFollow.cons_data {es : List BusEvent} (hes : DirectionsFollow es) (b : Data) :
    DirectionsFollow (.driveData b :: es) := by
  intro pre md post h
  cases pre with
  | nil => simp at h
  | cons e pre =>
    obtain ⟨rfl, htail⟩ := List.cons.inj h
    obtain ⟨pre', ad, dt, rfl⟩ := hes pre md post htail
    exact ⟨.driveData b :: pre', ad, dt, rfl⟩

/-- A whole setup in front: its own direction follows its address and data. -/
theorem DirectionsFollow.cons_setup {es : List BusEvent} (hes : DirectionsFollow es)
    (ad : Address) (dt : Data) (m : BusMode) :
    DirectionsFollow (.driveAddr ad :: .driveData dt :: .driveMode m :: es) := by
  intro pre md post h
  rcases pre with _ | ⟨e₁, _ | ⟨e₂, _ | ⟨e₃, pre⟩⟩⟩
  · simp at h
  · simp at h
  · obtain ⟨rfl, rfl, -⟩ : .driveAddr ad = e₁ ∧ .driveData dt = e₂ ∧ _ := by simpa using h
    exact ⟨[], ad, dt, rfl⟩
  · obtain ⟨rfl, rfl, rfl, htail⟩ :
        .driveAddr ad = e₁ ∧ .driveData dt = e₂ ∧ .driveMode m = e₃ ∧ _ := by simpa using h
    obtain ⟨pre', ad', dt', rfl⟩ := hes pre md post htail
    exact ⟨.driveAddr ad :: .driveData dt :: .driveMode m :: pre', ad', dt', rfl⟩

theorem directionsFollow_of_traceOrdered {es : List BusEvent} (h : traceOrdered es = true) :
    DirectionsFollow es := by
  induction es using traceOrdered.induct with
  | case1 => exact directionsFollow_nil
  | case2 ad dt b es ih => exact ((ih h).cons_data b).cons_setup ad dt .read
  | case3 ad dt m es hread ih =>
    rw [traceOrdered.eq_3 _ _ _ _ hread] at h
    exact (ih h).cons_setup ad dt m
  | case4 es hnil hread hsetup =>
    rw [traceOrdered.eq_4 es hnil hread hsetup] at h
    cases h

/-- Settles O44: SETUP is the three line writes in order, no other operation drives address or direction, and an ordered trace is made of such setups. -/
theorem directionIsDrivenAfterAddressAndData : Obligations.DirectionIsDrivenAfterAddressAndData := by
  refine ⟨fun s t h => ?_, fun _ _ _ => exec_drives_data_only,
    fun s hinv => directionsFollow_of_traceOrdered hinv.ordered⟩
  obtain ⟨-, rfl⟩ := execSetup_next.mp h
  exact ⟨_, _, _, s.assertDrive_trace s.setupDrive, rfl, rfl, rfl⟩

/-! ### The legal orders of commands -/

section Transitions

variable {i : Instr} {s t : State}

/-- The operations outside the cycle go on in every phase and keep it (42_bus_cycle.md R94). -/
theorem exec_of_not_cycleOp (hop : cycleOp i = none) :
    ∃ t, exec i s = .next t ∧ t.phase = s.phase := by
  cases i with
  | setup => cases hop
  | service b => cases hop
  | complete => cases hop
  | _ => exact ⟨_, rfl, rfl⟩

/-- A bus operation in its phase goes on to the next phase of the cycle (42_bus_cycle.md R94). -/
theorem exec_of_phase_eq {op : BusOp} (hop : cycleOp i = some op) (hp : s.phase = phaseOf op) :
    ∃ t, exec i s = .next t ∧ t.phase = phaseAfter op := by
  cases i <;> cases hop
  case setup => exact ⟨_, exec_setup_of_idle hp, rfl⟩
  case service b => exact ⟨_, exec_service_of_asserted b hp, rfl⟩
  case complete => exact ⟨_, exec_complete_of_serviced hp, rfl⟩

/-- No operation writes the fault record or the schedule (10_state.md R21). -/
theorem exec_keeps_fault_and_driver (h : exec i s = .next t) :
    t.fault = s.fault ∧ t.driver = s.driver := by
  cases i with
  | setup =>
    obtain ⟨-, rfl⟩ := execSetup_next.mp h
    exact ⟨rfl, rfl⟩
  | service b =>
    obtain ⟨-, rfl⟩ := execService_next.mp h
    cases hm : s.rwb with
    | read => rw [State.acceptByte_of_read b hm]; exact ⟨rfl, rfl⟩
    | write => rw [State.acceptByte_of_write b hm]; exact ⟨rfl, rfl⟩
  | complete =>
    obtain ⟨-, rfl⟩ := execComplete_next.mp h
    exact ⟨rfl, rfl⟩
  | _ =>
    obtain rfl := Host.Outcome.next.inj h
    exact ⟨rfl, rfl⟩

end Transitions

/-- What remains of `n` whole cycles after the one under way in a phase. -/
def cyclesFrom (p : Phase) (n : Nat) : List BusOp :=
  let cycles := (List.replicate n [BusOp.setup, .service, .complete]).flatten
  match p with
  | .idle => cycles
  | .asserted => .service :: .complete :: cycles
  | .serviced => .complete :: cycles

/-- The commands are legal from this phase on: they begin what remains of the cycle under way and the whole cycles after it (42_bus_cycle.md R94). -/
def LegalOrderFrom (p : Phase) (is : List Instr) : Prop :=
  ∃ n, is.filterMap cycleOp <+: cyclesFrom p n

/-- Whole cycles begin with SETUP, unless there are none. -/
theorem exists_cons_prefix_cyclesFrom_idle {op : BusOp} {ops : List BusOp} :
    (∃ n, op :: ops <+: cyclesFrom .idle n) ↔
      op = .setup ∧ ∃ n, ops <+: cyclesFrom .asserted n := by
  rw [← Nat.or_exists_add_one]
  simp [cyclesFrom, List.replicate_succ, List.cons_prefix_cons]

/-- The next bus operation must be the one its phase allows, and the phase it leaves governs the rest. -/
theorem exists_cons_prefix_cyclesFrom {op : BusOp} {ops : List BusOp} {p : Phase} :
    (∃ n, op :: ops <+: cyclesFrom p n) ↔
      p = phaseOf op ∧ ∃ n, ops <+: cyclesFrom (phaseAfter op) n := by
  cases p with
  | idle => rw [exists_cons_prefix_cyclesFrom_idle]; cases op <;> simp [phaseOf, phaseAfter]
  | asserted => cases op <;> simp [cyclesFrom, phaseOf, phaseAfter, List.cons_prefix_cons]
  | serviced => cases op <;> simp [cyclesFrom, phaseOf, phaseAfter, List.cons_prefix_cons]

theorem legalOrderFrom_cons_of_not_cycleOp {i : Instr} {is : List Instr} {p : Phase}
    (hop : cycleOp i = none) : LegalOrderFrom p (i :: is) ↔ LegalOrderFrom p is := by
  rw [LegalOrderFrom, List.filterMap_cons_none hop, LegalOrderFrom]

theorem legalOrderFrom_cons_of_cycleOp {i : Instr} {is : List Instr} {p : Phase} {op : BusOp}
    (hop : cycleOp i = some op) :
    LegalOrderFrom p (i :: is) ↔ p = phaseOf op ∧ LegalOrderFrom (phaseAfter op) is := by
  rw [LegalOrderFrom, List.filterMap_cons_some hop]
  exact exists_cons_prefix_cyclesFrom

/-- The run of the next `n` steps goes on, and no fault is recorded at its end. -/
def RunsFaultFree (n : Nat) (s : State) : Prop := ∃ t, runSteps n s = .next t ∧ t.fault = none

theorem afterReset_commandsOf (is : List Instr) : afterReset (commandsOf is) = none := by
  induction is with
  | nil => rfl
  | cons i is ih => exact ih

/-- With only commands to come, a recorded fault stays (10_state.md R33). -/
theorem not_runsFaultFree_of_fault {s : State} {f : Fault} {is : List Instr} (n : Nat)
    (hf : s.fault = some f) (hd : s.driver = commandsOf is) : ¬ RunsFaultFree n s := by
  rintro ⟨t, ht, hnone⟩
  cases n with
  | zero =>
    obtain rfl := Host.Outcome.next.inj ht
    rw [hf] at hnone
    cases hnone
  | succ n =>
    rw [runSteps_succ, step_faulted hf, hd, afterReset_commandsOf] at ht
    cases ht

section Command

variable {i : Instr} {is : List Instr} {s t : State} (hf : s.fault = none)
  (hd : s.driver = commandsOf (i :: is))

include hf hd

/-- A command that goes on leaves the rest of the run to the commands after it. -/
theorem runsFaultFree_succ_of_exec_next (n : Nat)
    (h : exec i (s.withDriver (commandsOf is)) = .next t) :
    RunsFaultFree (n + 1) s ↔ RunsFaultFree n t := by
  rw [RunsFaultFree, runSteps_succ_of_next (step_of_exec_next hf hd h), RunsFaultFree]

/-- A command that raises ends the fault-free run. -/
theorem not_runsFaultFree_succ_of_exec_fault (n : Nat) {f : Fault}
    (h : exec i (s.withDriver (commandsOf is)) = .fault f) : ¬ RunsFaultFree (n + 1) s := by
  rw [RunsFaultFree, runSteps_succ_of_next (step_of_exec_fault hf hd h)]
  exact not_runsFaultFree_of_fault n rfl rfl

end Command

/-- A list of commands runs without a fault from a phase exactly when it is legal from there. -/
theorem runsFaultFree_iff_legalOrderFrom (is : List Instr) {s : State} (hf : s.fault = none)
    (hd : s.driver = commandsOf is) : RunsFaultFree is.length s ↔ LegalOrderFrom s.phase is := by
  induction is generalizing s with
  | nil => exact ⟨fun _ => ⟨0, List.nil_prefix⟩, fun _ => ⟨s, rfl, hf⟩⟩
  | cons i is ih =>
    have hgoes : ∀ t, exec i (s.withDriver (commandsOf is)) = .next t →
        (RunsFaultFree (i :: is).length s ↔ LegalOrderFrom t.phase is) := by
      intro t ht
      obtain ⟨htf, htd⟩ := exec_keeps_fault_and_driver ht
      rw [List.length_cons, runsFaultFree_succ_of_exec_next hf hd _ ht, ih (htf.trans hf) htd]
    cases hop : cycleOp i with
    | none =>
      obtain ⟨t, ht, htp⟩ := exec_of_not_cycleOp (s := s.withDriver (commandsOf is)) hop
      rw [hgoes t ht, htp, legalOrderFrom_cons_of_not_cycleOp hop, State.withDriver_phase]
    | some op =>
      rw [legalOrderFrom_cons_of_cycleOp hop]
      by_cases hp : s.phase = phaseOf op
      · obtain ⟨t, ht, htp⟩ := exec_of_phase_eq (s := s.withDriver (commandsOf is)) hop hp
        rw [hgoes t ht, htp, and_iff_right hp]
      · have hraise := exec_of_phase_ne (s := s.withDriver (commandsOf is)) hop hp
        exact iff_of_false (not_runsFaultFree_succ_of_exec_fault hf hd _ hraise) fun h => hp h.1

/-- Settles O43: the table operation by operation, and by induction over the commands from each of the three phases. -/
theorem legalSequencesArePrefixesOfTheCycle : Obligations.LegalSequencesArePrefixesOfTheCycle := by
  refine ⟨fun _ _ => exec_of_not_cycleOp, fun _ _ _ hop => ⟨exec_of_phase_eq hop, exec_of_phase_ne hop⟩,
    fun is s hf hp hd => ?_⟩
  have h : RunsFaultFree is.length s ↔ LegalOrderFrom s.phase is :=
    runsFaultFree_iff_legalOrderFrom is hf hd
  rw [hp] at h
  exact h

end Sys2Proof.Machine

/-! ## Proofs: the faults and their priority -/

namespace Sys2Proof.Machine

/-! ### What can raise -/

section Raising

variable {s : State} {f : Fault}

/-- A word that decodes to no operation is one the decoder gives a reason for (30_encoding.md R71). -/
theorem decode_ne_ok_iff {cw : Word} : (∀ i, decode cw ≠ .ok i) ↔ ∃ e, decode cw = .error e :=
  (decode_error_iff.trans not_exists).symm

/-- A meaning raises exactly when it is a bus operation out of its phase (60_exceptions.md R109). -/
theorem exec_fault_iff {i : Instr} : exec i s = .fault f ↔
    ∃ op, cycleOp i = some op ∧ s.phase ≠ phaseOf op ∧ f = .protocolViolation op s.phase := by
  constructor
  · intro h
    cases hop : cycleOp i with
    | none =>
      obtain ⟨t, ht, -⟩ := exec_of_not_cycleOp (s := s) hop
      cases ht.symm.trans h
    | some op =>
      by_cases hp : s.phase = phaseOf op
      · obtain ⟨t, ht, -⟩ := exec_of_phase_eq hop hp
        cases ht.symm.trans h
      · exact ⟨op, rfl, hp, Host.Outcome.fault.inj (h.symm.trans (exec_of_phase_ne hop hp))⟩
  · rintro ⟨op, hop, hp, rfl⟩
    exact exec_of_phase_ne hop hp

theorem exec_ne_refused (i : Instr) (s : State) (r : Refusal) : exec i s ≠ .refused r := by
  intro h
  cases i with
  | setup => cases (State.inPhase_refused.mp h).2
  | service b => cases (State.inPhase_refused.mp h).2
  | complete => cases (State.inPhase_refused.mp h).2
  | _ => cases h

/-- A command word raises when it is reserved, or when its operation does (60_exceptions.md R109). -/
theorem runCommand_fault_iff {cw : Word} : runCommand cw s = .fault f ↔
    ((∀ i, decode cw ≠ .ok i) ∧ f = .illegalCommand cw) ∨
      ∃ i, decode cw = .ok i ∧ exec i s = .fault f := by
  rw [runCommand]
  cases decode cw with
  | ok i => simp
  | error e => simp [eq_comm]

/-- The service step raises out of phase, and on an absent read under `fatal` (60_exceptions.md R109). -/
theorem serviceStep_fault_iff : serviceStep s = .fault f ↔
    (s.phase ≠ .asserted ∧ f = .protocolViolation .service s.phase) ∨
    (s.phase = .asserted ∧ s.rwb = .read ∧ s.mem.read s.addrBus = none ∧
      s.config.absentRead = .fatal ∧ f = .absentRead s.addrBus) := by
  rw [serviceStep_fault, serviceByte_eq_none, and_assoc]

/-- An absent read takes a READ cycle and the `fatal` policy (60_exceptions.md R112). -/
theorem read_and_fatal_of_absentRead {addr : Address} (h : serviceStep s = .fault (.absentRead addr)) :
    s.phase = .asserted ∧ s.rwb = .read ∧ s.config.absentRead = .fatal := by
  obtain ⟨-, hf⟩ | ⟨hp, hm, -, hfatal, -⟩ := serviceStep_fault_iff.mp h
  · cases hf
  · exact ⟨hp, hm, hfatal⟩

end Raising

/-- Settles O9: for each of the meanings, the command words and the service step, the cases in which it raises. -/
theorem onlyTheListedFaultsAreRaised : Obligations.OnlyTheListedFaultsAreRaised :=
  ⟨fun _ _ _ => exec_fault_iff, exec_ne_refused, fun _ _ _ => runCommand_fault_iff,
    fun _ _ => serviceStep_fault_iff⟩

/-! ### The step that raises, and the end of the run -/

theorem afterReset_eq_none {es : List DriverEvent} (h : es.any isReset = false) :
    afterReset es = none := by
  induction es using afterReset.induct with
  | case1 => rfl
  | case2 cw es => cases h
  | case3 cw es ih => exact ih h
  | case4 es ih => exact ih h

section RaisingSteps

variable {s : State} {rest : List DriverEvent} {f : Fault}

/-- With no reset to come, a recorded fault stops the machine (10_state.md R33). -/
theorem step_of_recorded_fault (hf : s.fault = some f) (h : s.driver.any isReset = false) :
    step s = .fault f := by
  rw [step_faulted hf, afterReset_eq_none h]

/-- The step takes its event and records the fault, writing nothing else, and the run ends there unless a reset is to come (60_exceptions.md R116). -/
def RaisesAndEnds (s : State) (rest : List DriverEvent) (f : Fault) : Prop :=
  step s = .next { s with driver := rest, result := none, fault := some f } ∧
    (rest.any isReset = false → runSteps 2 s = .fault f)

theorem raisesAndEnds_of_step_raise (h : step s = .next ((s.withDriver rest).raise f)) :
    RaisesAndEnds s rest f := by
  refine ⟨h, fun hrest => ?_⟩
  have hstop : step ((s.withDriver rest).raise f) = .fault f := step_of_recorded_fault rfl hrest
  rw [runSteps_succ_of_next h, runSteps_succ, hstop]

theorem exists_recorded_fault (h : RaisesAndEnds s rest f) :
    ∃ t, step s = .next t ∧ t.fault = some f :=
  ⟨_, h.1, rfl⟩

theorem raisesAndEnds_of_serviceStep (hf : s.fault = none) (hd : s.driver = .svc :: rest)
    (h : serviceStep (s.withDriver rest) = .fault f) : RaisesAndEnds s rest f :=
  raisesAndEnds_of_step_raise (by rw [step_event hf hd, runEvent, h, settle])

theorem raisesAndEnds_of_reserved {cw : Word} (hf : s.fault = none)
    (hd : s.driver = .edge false cw :: rest) (h : ∀ i, decode cw ≠ .ok i) :
    RaisesAndEnds s rest (.illegalCommand cw) := by
  obtain ⟨e, he⟩ := decode_ne_ok_iff.mp h
  refine raisesAndEnds_of_step_raise ?_
  rw [step_event hf hd, runEvent, runCommand_of_reserved he, settle]

theorem raisesAndEnds_of_phase_ne {i : Instr} {op : BusOp} (hf : s.fault = none)
    (hd : s.driver = .edge false (encode i) :: rest) (hop : cycleOp i = some op)
    (hp : s.phase ≠ phaseOf op) : RaisesAndEnds s rest (.protocolViolation op s.phase) :=
  raisesAndEnds_of_step_raise
    (step_of_exec_fault hf hd (exec_of_phase_ne (s := s.withDriver rest) hop hp))

theorem raisesAndEnds_of_svc_phase_ne (hf : s.fault = none) (hd : s.driver = .svc :: rest)
    (hp : s.phase ≠ .asserted) : RaisesAndEnds s rest (.protocolViolation .service s.phase) :=
  raisesAndEnds_of_serviceStep hf hd (serviceStep_fault_iff.mpr (.inl ⟨hp, rfl⟩))

theorem raisesAndEnds_of_absent_read (hf : s.fault = none) (hd : s.driver = .svc :: rest)
    (hp : s.phase = .asserted) (hm : s.rwb = .read) (hnone : s.mem.read s.addrBus = none)
    (hfatal : s.config.absentRead = .fatal) : RaisesAndEnds s rest (.absentRead s.addrBus) :=
  raisesAndEnds_of_serviceStep hf hd (serviceStep_fault_iff.mpr (.inr ⟨hp, hm, hnone, hfatal, rfl⟩))

end RaisingSteps

/-- Settles O6: a word that no row selects decodes to no operation, so its command raises. -/
theorem illegalCommandWritesNothing : Obligations.IllegalCommandWritesNothing :=
  fun _ _ _ hf hd hrows =>
    raisesAndEnds_of_reserved hf hd (decode_ne_ok_iff.mpr (decode_error_iff_no_row.mpr hrows))

/-- Settles O7: the phase gate raises for each command of the cycle, and for the service step. -/
theorem protocolViolationWritesNothing : Obligations.ProtocolViolationWritesNothing :=
  ⟨fun _ _ _ _ => raisesAndEnds_of_phase_ne, fun _ _ => raisesAndEnds_of_svc_phase_ne⟩

/-- Settles O8: an absent read raises under `fatal`; it needs that policy and a READ cycle, which a machine with the reference `SetupSource` never has under way. -/
theorem absentReadWritesNothing : Obligations.AbsentReadWritesNothing := by
  refine ⟨fun _ _ => raisesAndEnds_of_absent_read, fun s b addr hfill h => ?_, fun s addr hinv h => ?_⟩
  · obtain ⟨-, -, hfatal⟩ := read_and_fatal_of_absentRead h
    cases hfill.symm.trans hfatal
  · obtain ⟨hp, hread, -⟩ := read_and_fatal_of_absentRead h
    have hwrite : s.rwb = .write := hinv.writing (by rw [hp]; decide)
    cases hwrite.symm.trans hread

/-- Settles O5: a reset before a recorded fault, that before a reserved word, and a wrong phase before an absent read. -/
theorem stepFollowsFaultPriority : Obligations.StepFollowsFaultPriority := by
  refine ⟨fun _ _ _ => step_resetEdge, fun _ _ => step_of_recorded_fault,
    fun s cw rest hf hd hno => exists_recorded_fault (raisesAndEnds_of_reserved hf hd hno),
    fun s cw rest i op hf hd hi hop hp => ?_,
    fun s rest hf hd hp => exists_recorded_fault (raisesAndEnds_of_svc_phase_ne hf hd hp),
    fun s rest hf hd hp hm hnone hfatal =>
      exists_recorded_fault (raisesAndEnds_of_absent_read hf hd hp hm hnone hfatal)⟩
  obtain rfl := encode_of_decode hi
  exact exists_recorded_fault (raisesAndEnds_of_phase_ne hf hd hop hp)

end Sys2Proof.Machine

/-! ## Proofs: a reset is the only way out of a fault -/

namespace Sys2Proof.Machine

/-- A faulted machine goes on only by a reset still to come in its schedule, and that step is the reset (10_state.md R33, 60_exceptions.md R118). -/
theorem step_next_of_recorded_fault {s t : State} {f : Fault} (hf : s.fault = some f)
    (h : step s = .next t) :
    s.driver.any isReset = true ∧ ∃ rest, t = (s.withDriver rest).blockReset := by
  constructor
  · by_contra hno
    rw [step_of_recorded_fault hf (Bool.eq_false_of_not_eq_true hno)] at h
    cases h
  · rw [step_faulted hf] at h
    split at h
    · exact ⟨_, (Host.Outcome.next.inj h).symm⟩
    · cases h

/-- Settles O2: the edge is `blockReset` under the rest of the schedule, element by element, and so is the one step that a faulted machine can take. -/
theorem resetEdgeRestoresEveryElement : Obligations.ResetEdgeRestoresEveryElement := by
  refine ⟨fun s cw rest hd => ⟨(s.withDriver rest).blockReset, step_resetEdge hd, ?_⟩,
    fun s t f hf h => ?_⟩
  · simp
  · obtain ⟨hreset, rest, rfl⟩ := step_next_of_recorded_fault hf h
    exact ⟨hreset, State.blockReset_fault _, State.blockReset_phase _⟩

end Sys2Proof.Machine

/-! ## Proofs: what an operation does, and what every event keeps -/

namespace Sys2Proof.Machine

/-! ### The effect of an operation that goes on -/

/-- What an operation writes when it goes on (10_state.md R21): NOP and the reading operations only the result port, each other operation its own elements, and SERVICE by the direction of its cycle. -/
inductive Effect : Instr → State → State → Prop
  | read {i : Instr} {s : State} (r : Option PortValue) (hi : i = .nop ∨ returnsValue i = true) :
      Effect i s { s with result := r }
  | setf {s : State} (f : StatusFlag) (v : Bool) :
      Effect (.setf f v) s (s.writeFlag f v).returnsNothing
  | seta {s : State} (x : Data) : Effect (.seta x) s (s.loadA x).returnsNothing
  | setup {s : State} (hp : s.phase = .idle) :
      Effect .setup s ((s.assertDrive s.setupDrive).enter .asserted).returnsNothing
  | serviceRead {s : State} (b : Data) (hp : s.phase = .asserted) (hm : s.rwb = .read) :
      Effect (.service b) s ((s.driveData b).enter .serviced).returnsNothing
  | serviceWrite {s : State} (b : Data) (hp : s.phase = .asserted) (hm : s.rwb = .write) :
      Effect (.service b) s (s.enter .serviced).returnsNothing
  | complete {s : State} (hp : s.phase = .serviced) :
      Effect .complete s ((s.loadA s.dataBus).enter .idle).returnsNothing

/-- Every operation that goes on has its effect. -/
theorem effect_of_exec {i : Instr} {s t : State} (h : exec i s = .next t) : Effect i s t := by
  cases i with
  | setf f v =>
    obtain rfl := Host.Outcome.next.inj h
    exact .setf f v
  | seta x =>
    obtain rfl := Host.Outcome.next.inj h
    exact .seta x
  | setup =>
    obtain ⟨hp, rfl⟩ := execSetup_next.mp h
    exact .setup hp
  | service b =>
    obtain ⟨hp, rfl⟩ := execService_next.mp h
    cases hm : s.rwb with
    | read => rw [State.acceptByte_of_read b hm]; exact .serviceRead b hp hm
    | write => rw [State.acceptByte_of_write b hm]; exact .serviceWrite b hp hm
  | complete =>
    obtain ⟨hp, rfl⟩ := execComplete_next.mp h
    exact .complete hp
  | nop =>
    obtain rfl := Host.Outcome.next.inj h
    exact .read none (.inl rfl)
  | _ =>
    obtain rfl := Host.Outcome.next.inj h
    exact .read _ (.inr rfl)

section Frame

variable {i : Instr} {s t : State}

/-- No operation writes `pc`, `sp`, `ir`, `mar` or `mdr` (10_state.md R21). -/
theorem exec_keeps_registers (h : exec i s = .next t) :
    t.pc = s.pc ∧ t.sp = s.sp ∧ t.ir = s.ir ∧ t.mar = s.mar ∧ t.mdr = s.mdr := by
  cases effect_of_exec h with
  | setup hp => simp [State.assertDrive]
  | _ => exact ⟨rfl, rfl, rfl, rfl, rfl⟩

/-- No operation writes the memory or the parameters (10_state.md R21, R35). -/
theorem exec_keeps_mem_and_config (h : exec i s = .next t) : t.mem = s.mem ∧ t.config = s.config := by
  cases effect_of_exec h with
  | setup hp => simp [State.assertDrive]
  | _ => exact ⟨rfl, rfl⟩

/-- Writing a flag writes no reserved bit (40_flag_ops.md R80). -/
theorem setFlag_and_reserved (sr : Flags) (f : StatusFlag) (v : Bool) :
    setFlag sr f v &&& 0x7D#8 = sr &&& 0x7D#8 := by
  revert sr
  cases f <;> cases v <;> decide

/-- The accumulator load writes no reserved bit (41_register_file.md R86). -/
theorem refreshFlags_and_reserved (sr : Flags) (x : Data) :
    refreshFlags sr x &&& 0x7D#8 = sr &&& 0x7D#8 := by
  rw [refreshFlags, setFlag_and_reserved, setFlag_and_reserved]

/-- No operation writes a reserved bit of `sr` (10_state.md R25). -/
theorem exec_keeps_reserved (h : exec i s = .next t) : t.sr &&& 0x7D#8 = s.sr &&& 0x7D#8 := by
  cases effect_of_exec h with
  | setf f v => exact setFlag_and_reserved s.sr f v
  | seta x => exact refreshFlags_and_reserved s.sr x
  | complete hp => exact refreshFlags_and_reserved s.sr s.dataBus
  | setup hp => simp [State.assertDrive]
  | _ => rfl

end Frame

/-! ### What each event keeps, every step keeps -/

/-- A command or the service step raises this fault. -/
def Raises (s : State) (f : Fault) : Prop :=
  (∃ cw, runCommand cw s = .fault f) ∨ serviceStep s = .fault f

/-- A raised fault names what is true of the state it is raised in (60_exceptions.md R110 to R112). -/
theorem raises_cases {s : State} {f : Fault} (h : Raises s f) :
    (∃ cw, (∀ i, decode cw ≠ .ok i) ∧ f = .illegalCommand cw) ∨
    (∃ op, s.phase ≠ phaseOf op ∧ f = .protocolViolation op s.phase) ∨
    (s.phase = .asserted ∧ s.rwb = .read ∧ s.mem.read s.addrBus = none ∧
      s.config.absentRead = .fatal ∧ f = .absentRead s.addrBus) := by
  obtain ⟨cw, h⟩ | h := h
  · obtain ⟨hno, rfl⟩ | ⟨i, -, h⟩ := runCommand_fault_iff.mp h
    · exact .inl ⟨cw, hno, rfl⟩
    · obtain ⟨op, -, hp, rfl⟩ := exec_fault_iff.mp h
      exact .inr (.inl ⟨op, hp, rfl⟩)
  · obtain ⟨hp, rfl⟩ | habsent := serviceStep_fault_iff.mp h
    · exact .inr (.inl ⟨.service, hp, rfl⟩)
    · exact .inr (.inr habsent)

/-- The service step is SERVICE, in a WRITE cycle after the store (42_bus_cycle.md R100). -/
theorem exec_service_of_serviceStep {s t : State} (h : serviceStep s = .next t) :
    (s.rwb = .read ∧ ∃ b, exec (.service b) s = .next t) ∨
    (s.rwb = .write ∧ exec (.service 0x00) (s.store s.addrBus s.dataBus) = .next t) := by
  obtain ⟨hp, ⟨hm, b, -, rfl⟩ | ⟨hm, rfl⟩⟩ := serviceStep_next.mp h
  · refine .inl ⟨hm, b, ?_⟩
    rw [exec_service_of_asserted b hp, State.acceptByte_of_read b hm]
  · refine .inr ⟨hm, ?_⟩
    rw [exec_service_of_asserted _ (by simpa using hp), State.acceptByte_of_write _ (by simpa using hm)]

/-- Each way a step can go on keeps the predicate. -/
structure KeptByEachEvent (P : State → Prop) : Prop where
  taken : ∀ {s} rest, P s → P (s.withDriver rest)
  reset : ∀ {s}, P s → P s.blockReset
  stored : ∀ {s}, P s → s.fault = none → P (s.store s.addrBus s.dataBus)
  command : ∀ {i s t}, P s → s.fault = none → exec i s = .next t → P t
  raised : ∀ {s f}, P s → Raises s f → P (s.raise f)

/-- What each event keeps, every step keeps. -/
theorem KeptByEachEvent.step {P : State → Prop} (hP : KeptByEachEvent P) {s t : State} (hs : P s)
    (hstep : Machine.step s = .next t) : P t := by
  obtain ⟨-, -, rfl⟩ | ⟨rest, rfl⟩ | ⟨hf, cw, i, rest, -, -, h⟩ | ⟨hf, rest, -, h⟩ |
    ⟨-, cw, rest, f, -, h, rfl⟩ | ⟨-, rest, f, -, h, rfl⟩ := step_next_cases hstep
  · exact hs
  · exact hP.reset (hP.taken rest hs)
  · exact hP.command (hP.taken rest hs) hf h
  · obtain ⟨-, b, h⟩ | ⟨-, h⟩ := exec_service_of_serviceStep h
    · exact hP.command (hP.taken rest hs) hf h
    · exact hP.command (hP.stored (hP.taken rest hs) hf) hf h
  · exact hP.raised (hP.taken rest hs) (.inl ⟨cw, h⟩)
  · exact hP.raised (hP.taken rest hs) (.inr h)

/-- What holds of a state and is kept by each event holds after any number of steps. -/
theorem KeptByEachEvent.runSteps {P : State → Prop} (hP : KeptByEachEvent P) {n : Nat} {s t : State}
    (hs : P s) (h : Machine.runSteps n s = .next t) : P t := by
  induction n generalizing s with
  | zero =>
    obtain rfl := Host.Outcome.next.inj h
    exact hs
  | succ n ih =>
    rw [runSteps_succ] at h
    split at h
    case h_1 u hu => exact ih (hP.step hs hu) h
    all_goals cases h

end Sys2Proof.Machine

/-! ## Proofs: the invariants -/

namespace Sys2Proof.Machine

/-! ### The registers and the memory -/

theorem registerInv_keptByEachEvent : KeptByEachEvent RegisterInv where
  taken _ hs := ⟨hs.memCanonical, hs.srReservedClear, hs.pcZero, hs.spZero, hs.irZero, hs.marZero, hs.mdrZero⟩
  reset hs := ⟨hs.memCanonical, by simp, rfl, rfl, rfl, rfl, rfl⟩
  stored hs _ := ⟨Memory.write_wf hs.memCanonical _ _, hs.srReservedClear, hs.pcZero, hs.spZero,
    hs.irZero, hs.marZero, hs.mdrZero⟩
  command hs _ h := by
    obtain ⟨hpc, hsp, hir, hmar, hmdr⟩ := exec_keeps_registers h
    obtain ⟨hmem, -⟩ := exec_keeps_mem_and_config h
    exact ⟨hmem ▸ hs.memCanonical, (exec_keeps_reserved h).trans hs.srReservedClear,
      hpc.trans hs.pcZero, hsp.trans hs.spZero, hir.trans hs.irZero, hmar.trans hs.marZero,
      hmdr.trans hs.mdrZero⟩
  raised hs _ := ⟨hs.memCanonical, hs.srReservedClear, hs.pcZero, hs.spZero, hs.irZero, hs.marZero, hs.mdrZero⟩

/-- Settles O54: the store keeps the canonical form, and no operation writes a reserved bit or one of the five registers. -/
theorem stepKeepsRegisterInvariant : Obligations.StepKeepsRegisterInvariant :=
  fun _ _ => registerInv_keptByEachEvent.step

/-! ### The bus -/

section LastDriven

variable (es es' : List BusEvent)

theorem lastAddr_append (init : Address) :
    lastAddr init (es ++ es') = lastAddr (lastAddr init es) es' := by
  induction es generalizing init with
  | nil => rfl
  | cons e es ih => cases e <;> exact ih _

theorem lastData_append (init : Data) :
    lastData init (es ++ es') = lastData (lastData init es) es' := by
  induction es generalizing init with
  | nil => rfl
  | cons e es ih => cases e <;> exact ih _

theorem lastMode_append (init : BusMode) :
    lastMode init (es ++ es') = lastMode (lastMode init es) es' := by
  induction es generalizing init with
  | nil => rfl
  | cons e es ih => cases e <;> exact ih _

end LastDriven

section OrderedTraces

variable {es : List BusEvent}

theorem endsWithMode_append_mode (es : List BusEvent) (m : BusMode) :
    endsWithMode (es ++ [.driveMode m]) = true := by
  induction es with
  | nil => rfl
  | cons e es ih =>
    rw [List.cons_append, endsWithMode]
    · exact ih
    · simp

/-- A whole setup may stand in front of every ordered trace (42_bus_cycle.md R97). -/
theorem traceOrdered_cons_setup (ad : Address) (dt : Data) (m : BusMode) (h : traceOrdered es = true) :
    traceOrdered (.driveAddr ad :: .driveData dt :: .driveMode m :: es) = true := by
  rw [traceOrdered]
  · exact h
  · rintro b es' rfl -
    cases h

/-- A whole setup may follow every ordered trace (42_bus_cycle.md R97). -/
theorem traceOrdered_append_setup (ad : Address) (dt : Data) (m : BusMode) (h : traceOrdered es = true) :
    traceOrdered (es ++ [.driveAddr ad, .driveData dt, .driveMode m]) = true := by
  induction es using traceOrdered.induct with
  | case1 => exact traceOrdered_cons_setup ad dt m rfl
  | case2 ad' dt' b es ih => exact ih h
  | case3 ad' dt' m' es hread ih =>
    rw [traceOrdered.eq_3 _ _ _ _ hread] at h
    exact traceOrdered_cons_setup ad' dt' m' (ih h)
  | case4 es hnil hread hsetup =>
    rw [traceOrdered.eq_4 es hnil hread hsetup] at h
    cases h

/-- A serviced byte may follow a trace whose last setup is a READ not yet serviced (42_bus_cycle.md R99). -/
theorem traceOrdered_append_data (b : Data) {init : BusMode} (h : traceOrdered es = true)
    (hend : endsWithMode es = true) (hread : lastMode init es = .read) :
    traceOrdered (es ++ [.driveData b]) = true := by
  induction es using traceOrdered.induct generalizing init with
  | case1 => cases hend
  | case2 ad dt b' es ih =>
    cases es with
    | nil => cases hend
    | cons e es => exact ih h hend hread
  | case3 ad dt m es hno ih =>
    rw [traceOrdered.eq_3 _ _ _ _ hno] at h
    cases es with
    | nil =>
      obtain rfl : m = .read := hread
      rfl
    | cons e es => exact traceOrdered_cons_setup ad dt m (ih h hend hread)
  | case4 es hnil hno hsetup =>
    rw [traceOrdered.eq_4 es hnil hno hsetup] at h
    cases h

end OrderedTraces

/-- The invariant of the bus speaks of the lines, the trace and a cycle owed its service, of nothing else. -/
theorem BusInv.congr {s t : State} (hs : BusInv s) (haddr : t.addrBus = s.addrBus)
    (hdata : t.dataBus = s.dataBus) (hmode : t.rwb = s.rwb) (htrace : t.trace = s.trace)
    (hphase : t.phase = .asserted → s.phase = .asserted) : BusInv t where
  addrIsLast := by rw [haddr, htrace, hs.addrIsLast]
  dataIsLast := by rw [hdata, htrace, hs.dataIsLast]
  modeIsLast := by rw [hmode, htrace, hs.modeIsLast]
  ordered := by rw [htrace, hs.ordered]
  assertedIsFresh h := by rw [htrace, hs.assertedIsFresh (hphase h)]

/-- A setup drives all three lines (42_bus_cycle.md R97). -/
theorem BusInv.setup {s : State} (hs : BusInv s) (d : BusDrive) :
    BusInv ((s.assertDrive d).enter .asserted).returnsNothing where
  addrIsLast := by simp [State.assertDrive, lastAddr_append, lastAddr]
  dataIsLast := by simp [State.assertDrive, lastData_append, lastData]
  modeIsLast := by simp [State.assertDrive, lastMode_append, lastMode]
  ordered := by
    simpa [State.assertDrive_trace] using traceOrdered_append_setup d.addr d.data d.mode hs.ordered
  assertedIsFresh _ := endsWithMode_append_mode _ d.mode

/-- The service of a READ cycle drives `data_bus`, right after the setup's direction (42_bus_cycle.md R99). -/
theorem BusInv.serviceRead {s : State} (hs : BusInv s) (b : Data) (hp : s.phase = .asserted)
    (hm : s.rwb = .read) : BusInv ((s.driveData b).enter .serviced).returnsNothing where
  addrIsLast := by simpa [lastAddr_append, lastAddr] using hs.addrIsLast
  dataIsLast := by simp [lastData_append, lastData]
  modeIsLast := by simpa [lastMode_append, lastMode] using hs.modeIsLast
  ordered := traceOrdered_append_data b hs.ordered (hs.assertedIsFresh hp) (hs.modeIsLast.symm.trans hm)
  assertedIsFresh h := by cases h

theorem busInv_keptByEachEvent : KeptByEachEvent BusInv where
  taken _ hs := hs.congr rfl rfl rfl rfl id
  reset _ := ⟨rfl, rfl, rfl, rfl, fun h => by cases h⟩
  stored hs _ := hs.congr rfl rfl rfl rfl id
  command hs _ h := by
    cases effect_of_exec h with
    | setup hp => exact hs.setup _
    | serviceRead b hp hm => exact hs.serviceRead b hp hm
    | serviceWrite b hp hm => exact hs.congr rfl rfl rfl rfl fun _ => hp
    | complete hp => exact hs.congr rfl rfl rfl rfl fun h => by cases h
    | _ => exact hs.congr rfl rfl rfl rfl id
  raised hs _ := hs.congr rfl rfl rfl rfl id

/-- Settles O55: only SETUP and a READ service drive a line, and each appends to the trace what the line then holds. -/
theorem stepKeepsBusInvariant : Obligations.StepKeepsBusInvariant :=
  fun _ _ => busInv_keptByEachEvent.step

/-! ### The fault record -/

theorem faultInv_of_no_fault {s : State} (h : s.fault = none) : FaultInv s := by
  rw [FaultInv, h]
  trivial

/-- A raising step writes nothing that the fault speaks of (60_exceptions.md R116). -/
theorem faultInv_raise {s : State} {f : Fault} (h : Raises s f) : FaultInv (s.raise f) := by
  obtain ⟨cw, hno, rfl⟩ | ⟨op, hp, rfl⟩ | ⟨hp, hm, hnone, hfatal, rfl⟩ := raises_cases h
  · exact hno
  · exact ⟨rfl, hp⟩
  · exact ⟨hp, hm, rfl, hnone, hfatal⟩

theorem faultInv_keptByEachEvent : KeptByEachEvent FaultInv where
  taken _ hs := hs
  reset _ := faultInv_of_no_fault rfl
  stored _ hf := faultInv_of_no_fault hf
  command _ hf h := faultInv_of_no_fault ((exec_keeps_fault_and_driver h).1.trans hf)
  raised _ h := faultInv_raise h

/-- Settles O56: what raises a fault is what the record then says, and the raising step writes none of it. -/
theorem stepKeepsFaultInvariant : Obligations.StepKeepsFaultInvariant :=
  fun _ _ => faultInv_keptByEachEvent.step

/-! ### The reference `SetupSource` -/

/-- The operations keep it that a cycle under way is a WRITE cycle: SETUP begins no other (42_bus_cycle.md R105). -/
theorem ReferenceInv.writing_of_exec {i : Instr} {s t : State} (hs : ReferenceInv s)
    (h : exec i s = .next t) : t.phase ≠ .idle → t.rwb = .write := by
  cases effect_of_exec h with
  | setup hp =>
    intro _
    exact congrArg BusDrive.mode (State.setupDrive_of_reference hs.source)
  | serviceRead b hp hm => exact fun _ => hs.writing (by rw [hp]; decide)
  | serviceWrite b hp hm => exact fun _ => hm
  | complete hp => exact fun hidle => absurd rfl hidle
  | _ => exact hs.writing

/-- An absent read takes a READ cycle under way (60_exceptions.md R112). -/
theorem ReferenceInv.not_raises_absentRead {s : State} (hs : ReferenceInv s) (addr : Address) :
    ¬ Raises s (.absentRead addr) := by
  intro h
  obtain ⟨cw, -, hf⟩ | ⟨op, -, hf⟩ | ⟨hp, hm, -⟩ := raises_cases h
  · cases hf
  · cases hf
  · cases hm.symm.trans (hs.writing (by rw [hp]; decide))

theorem referenceInv_keptByEachEvent : KeptByEachEvent ReferenceInv where
  taken _ hs := ⟨hs.source, hs.writing, hs.noAbsentRead⟩
  reset hs := ⟨hs.source, fun hidle => absurd rfl hidle, by simp⟩
  stored hs _ := ⟨hs.source, hs.writing, hs.noAbsentRead⟩
  command hs hf h := by
    obtain ⟨-, hconfig⟩ := exec_keeps_mem_and_config h
    obtain ⟨hfault, -⟩ := exec_keeps_fault_and_driver h
    exact ⟨hconfig ▸ hs.source, hs.writing_of_exec h, fun addr => hfault ▸ hs.noAbsentRead addr⟩
  raised {s f} hs h := by
    refine ⟨hs.source, hs.writing, fun addr haddr => ?_⟩
    obtain rfl : f = .absentRead addr := Option.some.inj haddr
    exact hs.not_raises_absentRead addr h

/-- Settles O57: the reference triple has direction WRITE, and without a READ cycle no absent read is raised. -/
theorem referenceMachineNeverReads : Obligations.ReferenceMachineNeverReads :=
  fun _ _ => referenceInv_keptByEachEvent.step

/-! ### Where the invariants begin -/

section Launch

variable (mem : Memory) (config : Config) (driver : List DriverEvent)

theorem registerInv_launch (hmem : mem.wf = true) : RegisterInv (State.launch mem config driver) :=
  ⟨hmem, by simp, rfl, rfl, rfl, rfl, rfl⟩

theorem busInv_launch : BusInv (State.launch mem config driver) :=
  ⟨rfl, rfl, rfl, rfl, fun h => by cases h⟩

theorem faultInv_launch : FaultInv (State.launch mem config driver) := faultInv_of_no_fault rfl

theorem referenceInv_launch (hsrc : config.setupSource = referenceConfig.setupSource) :
    ReferenceInv (State.launch mem config driver) :=
  ⟨hsrc, fun hidle => absurd rfl hidle, by simp⟩

end Launch

/-- Settles O58: a launch state has the reset values, and the reset state is the launch with a fresh memory and the reference parameters. -/
theorem launchStatesMeetTheInvariants : Obligations.LaunchStatesMeetTheInvariants :=
  ⟨registerInv_launch [] referenceConfig [] rfl, busInv_launch [] referenceConfig [],
    faultInv_launch [] referenceConfig [], referenceInv_launch [] referenceConfig [] rfl,
    fun mem config driver hmem => ⟨registerInv_launch mem config driver hmem,
      busInv_launch mem config driver, faultInv_launch mem config driver,
      referenceInv_launch mem config driver⟩⟩


end Sys2Proof.Machine

/-! ## Proofs: decoding and encoding -/

namespace Sys2Proof

/-- Settles O10: the encoder writes the operation's own fields, and the decoder reads these back. -/
theorem decodeOfEncodeIsTheOperation : Obligations.DecodeOfEncodeIsTheOperation :=
  fun i _ => decode_encode i

/-- Settles O11: a word that decodes has the fields of its operation, and a word is its fields. -/
theorem encodeOfDecodeIsTheWord : Obligations.EncodeOfDecodeIsTheWord :=
  fun _ _ => encode_of_decode

/-- The check of a flag select is that its three upper bits are clear (30_encoding.md R63). -/
theorem CommandFields.selIsFlag_iff {c : CommandFields} :
    c.selIsFlag = true ↔ c.sel.extractLsb' 1 3 = 0 := by
  have bits : ∀ sel : BitVec 4, decide (sel.toNat ≤ 1) = true ↔ sel.extractLsb' 1 3 = 0 := by decide
  exact bits c.sel

/-- The check of SETF's boolean is that its seven upper bits are clear (30_encoding.md R67 (b)). -/
theorem CommandFields.immIsBool_iff {c : CommandFields} :
    c.immIsBool = true ↔ c.imm8.extractLsb' 1 7 = 0 := by
  have bits : ∀ imm8 : BitVec 8, decide (imm8.toNat ≤ 1) = true ↔ imm8.extractLsb' 1 7 = 0 := by decide
  exact bits c.imm8

/-- The checks of 30_encoding.md R61 pass, operation code by operation code, on the fields that R70 does not reserve. -/
theorem CommandFields.legal_iff_not_reserved (c : CommandFields) : c.legal = true ↔ ¬ c.Reserved := by
  obtain ⟨op, sel, imm8⟩ := c
  have hop : ∀ x : BitVec 4, 9 ≤ x.toNat ∨
      x = 0 ∨ x = 1 ∨ x = 2 ∨ x = 3 ∨ x = 4 ∨ x = 5 ∨ x = 6 ∨ x = 7 ∨ x = 8 := by decide
  rcases hop op with hbig | rfl | rfl | rfl | rfl | rfl | rfl | rfl | rfl | rfl
  · have hno : ¬ op.toNat ≤ 8 := by omega
    simp [CommandFields.legal, CommandFields.opAssigned, CommandFields.Reserved, hbig, hno]
  all_goals
    simp [CommandFields.legal, CommandFields.opAssigned, CommandFields.Reserved,
      CommandFields.selIsFlag_iff, CommandFields.immIsBool_iff, CommandFields.selUnused,
      CommandFields.immUnused, CommandFields.selIsRegister, Nat.lt_succ_iff]

/-- Settles O13: both the decoder and the checks leave out just the six reserved cases. -/
theorem decoderAcceptsExactlyTheLegalWords : Obligations.DecoderAcceptsExactlyTheLegalWords :=
  fun cw => (decodeFields_accepts_iff (fieldsOf cw)).trans
    (CommandFields.legal_iff_not_reserved (fieldsOf cw)).symm

/-- Settles O15: the legal words are the encodings of their operations, and each reserved example has its reason in R70. -/
theorem workedEncodingsDecode : Obligations.WorkedEncodingsDecode := by
  refine ⟨decode_encode .nop, decode_encode (.tomask .zro), decode_encode (.tomask .neg),
    decode_encode (.getf .zro), decode_encode (.getf .neg),
    decode_encode (.setf .zro false), decode_encode (.setf .zro true),
    decode_encode (.setf .neg false), decode_encode (.setf .neg true),
    decode_encode (.seta 0), decode_encode (.seta 42), decode_encode (.seta 128),
    decode_encode (.seta 255), decode_encode .setup, decode_encode (.service 0),
    decode_encode (.service 42), decode_encode .complete,
    decode_encode .rdregPc, decode_encode .rdregSp, decode_encode .rdregA, decode_encode .rdregSr,
    decode_encode .rdregIr, decode_encode .rdregMar, decode_encode .rdregMdr,
    decode_encode .rdregAddrBus, decode_encode .rdregDataBus, decode_encode .rdregRwb, ?_⟩
  simp only [List.forall_mem_cons]
  exact ⟨⟨.immNotZero, rfl⟩, ⟨.noSuchFlag, rfl⟩, ⟨.immNotZero, rfl⟩, ⟨.immNotBool, rfl⟩,
    ⟨.noSuchFlag, rfl⟩, ⟨.selNotZero, rfl⟩, ⟨.immNotZero, rfl⟩, ⟨.selNotZero, rfl⟩,
    ⟨.selNotZero, rfl⟩, ⟨.noSuchRegister, rfl⟩, ⟨.immNotZero, rfl⟩, ⟨.opUnassigned, rfl⟩,
    ⟨.opUnassigned, rfl⟩, List.forall_mem_nil _⟩

end Sys2Proof

/-! ## Proofs: the step and the fault record -/

namespace Sys2Proof.Machine

/-! ### The step of each event -/

section Events

variable {s : State} {rest : List DriverEvent} {f : Fault}

theorem step_of_runCommand_fault {cw : Word} (hf : s.fault = none)
    (hd : s.driver = .edge false cw :: rest) (h : runCommand cw (s.withDriver rest) = .fault f) :
    step s = .next ((s.withDriver rest).raise f) := by
  rw [step_event hf hd, runEvent, h, settle]

theorem step_of_serviceStep_fault (hf : s.fault = none) (hd : s.driver = .svc :: rest)
    (h : serviceStep (s.withDriver rest) = .fault f) :
    step s = .next ((s.withDriver rest).raise f) := by
  rw [step_event hf hd, runEvent, h, settle]

end Events

/-- Settles O16: a word that decodes is the encoding of its operation, and the step of an encoded operation is the operation. -/
theorem stepRunsTheDecodedOperation : Obligations.StepRunsTheDecodedOperation := by
  refine ⟨fun s cw rest i hf hd hi => ?_, fun s rest i hf _ hd =>
    ⟨fun _ => step_of_exec_next hf hd, fun _ => step_of_exec_fault hf hd⟩⟩
  obtain rfl := encode_of_decode hi
  exact ⟨fun _ => step_of_exec_next hf hd, fun _ => step_of_exec_fault hf hd⟩

/-- Settles O17: the sequencer hands SVC to the service step, and answers the state itself where nothing is issued. -/
theorem stepOfServiceAndOfNoEvent : Obligations.StepOfServiceAndOfNoEvent :=
  ⟨fun _ _ hf hd => ⟨fun _ => step_of_serviceStep_next hf hd, fun _ => step_of_serviceStep_fault hf hd⟩,
    fun _ => step_unissued⟩

/-- A table word is the encoding of what the decoder reads from it. -/
theorem commandOf_eq_encode {nbits w : Nat} {i : Instr} (h : decodeTableWord nbits w = some i) :
    commandOf nbits w = encode i := by
  unfold decodeTableWord at h
  split at h
  · split at h
    · next j hj =>
      obtain rfl := Option.some.inj h
      exact (encode_of_decode hj).symm
    · cases h
  · cases h

/-- Settles O18: the word is the encoding of its operation, and it stands at the head of a schedule with no fault in its way. -/
theorem tableWordIsTheNextCommand : Obligations.TableWordIsTheNextCommand := by
  intro s nbits w i hi t ht
  rw [State.withFetchWord, commandOf_eq_encode hi]
  exact step_of_exec_next (s := s.issue (encode i)) (rest := s.driver) rfl rfl ht

/-! ### A recorded fault -/

theorem afterReset_cons_of_not_isReset {e : DriverEvent} (es : List DriverEvent)
    (h : isReset e = false) : afterReset (e :: es) = afterReset es := by
  rcases e with ⟨_ | _, cw⟩ | _
  · rfl
  · cases h
  · rfl

/-- What follows the first reset of a schedule (60_exceptions.md R117 (2)). -/
theorem afterReset_eq_some_iff {es rest : List DriverEvent} : afterReset es = some rest ↔
    ∃ pre cw, es = pre ++ .edge true cw :: rest ∧ pre.any isReset = false := by
  constructor
  · intro h
    induction es using afterReset.induct with
    | case1 => cases h
    | case2 cw es =>
      obtain rfl := Option.some.inj h
      exact ⟨[], cw, rfl, rfl⟩
    | case3 cw' es ih =>
      obtain ⟨pre, cw, rfl, hpre⟩ := ih h
      exact ⟨.edge false cw' :: pre, cw, rfl, hpre⟩
    | case4 es ih =>
      obtain ⟨pre, cw, rfl, hpre⟩ := ih h
      exact ⟨.svc :: pre, cw, rfl, hpre⟩
  · rintro ⟨pre, cw, rfl, hpre⟩
    induction pre with
    | nil => rfl
    | cons e pre ih =>
      rw [List.any_cons, Bool.or_eq_false_iff] at hpre
      rw [List.cons_append, afterReset_cons_of_not_isReset _ hpre.1, ih hpre.2]

theorem afterReset_eq_none_iff {es : List DriverEvent} :
    afterReset es = none ↔ es.any isReset = false := by
  refine ⟨fun h => ?_, afterReset_eq_none⟩
  induction es using afterReset.induct with
  | case1 => rfl
  | case2 cw es => cases h
  | case3 cw es ih => exact ih h
  | case4 es ih => exact ih h

/-- A faulted machine goes on exactly by the first reset of its schedule (60_exceptions.md R118). -/
theorem step_next_iff_of_recorded_fault {s t : State} {f : Fault} (hf : s.fault = some f) :
    step s = .next t ↔ ∃ rest, afterReset s.driver = some rest ∧ t = (s.withDriver rest).blockReset := by
  rw [step_faulted hf]
  cases afterReset s.driver <;> simp [eq_comm]

/-- Settles O3: a raised fault is recorded by its step, and the sequencer looks past a recorded fault for the first reset alone. -/
theorem faultRecordHoldsUntilReset : Obligations.FaultRecordHoldsUntilReset := by
  refine ⟨rfl, fun s cw rest f hf hd h => ⟨_, step_of_runCommand_fault hf hd h, rfl⟩,
    fun s rest f hf hd h => ⟨_, step_of_serviceStep_fault hf hd h, rfl⟩,
    fun _ _ => step_of_recorded_fault, fun s t f hf => ?_, State.blockReset_fault⟩
  rw [step_next_iff_of_recorded_fault hf]
  simp only [afterReset_eq_some_iff]
  constructor
  · rintro ⟨rest, ⟨pre, cw, hd, hpre⟩, ht⟩
    exact ⟨pre, cw, rest, hd, hpre, ht⟩
  · rintro ⟨pre, cw, rest, hd, hpre, ht⟩
    exact ⟨rest, ⟨pre, cw, hd, hpre⟩, ht⟩

/-! ### Where a step stops -/

/-- What is not refused is settled in a next state: a raised fault is recorded there (10_state.md R33). -/
theorem exists_settle_next {s : State} {o : Outcome} (ho : ∀ r, o ≠ .refused r) :
    ∃ t, settle s o = .next t := by
  cases o with
  | next t => exact ⟨t, rfl⟩
  | fault f => exact ⟨s.raise f, rfl⟩
  | refused r => exact absurd rfl (ho r)

theorem runCommand_ne_refused (cw : Word) (s : State) (r : Refusal) : runCommand cw s ≠ .refused r := by
  rw [runCommand]
  cases decode cw with
  | ok i => exact exec_ne_refused i s r
  | error e => simp

theorem serviceStep_ne_refused (s : State) (r : Refusal) : serviceStep s ≠ .refused r := by
  intro h
  obtain ⟨hp, h⟩ := State.inPhase_refused.mp h
  split at h
  · split at h
    · exact exec_ne_refused (.service _) _ _ h
    · cases h
  · exact exec_ne_refused (.service _) _ _ h

theorem exists_runEvent_next (e : DriverEvent) (s : State) : ∃ t, runEvent e s = .next t := by
  rcases e with ⟨_ | _, cw⟩ | _
  · exact exists_settle_next (runCommand_ne_refused cw s)
  · exact ⟨_, rfl⟩
  · exact exists_settle_next (serviceStep_ne_refused s)

/-- With no fault recorded a step goes on (60_exceptions.md R116). -/
theorem exists_step_next_of_no_fault {s : State} (hf : s.fault = none) : ∃ t, step s = .next t := by
  cases hd : s.driver with
  | nil => exact ⟨s, step_unissued hf hd⟩
  | cons e rest =>
    rw [step_event hf hd]
    exact exists_runEvent_next e _

/-- Settles O4: with no fault recorded the step goes on; with one it looks for a reset, and answers the fault where there is none. -/
theorem stepStopsOnlyOnARecordedFault : Obligations.StepStopsOnlyOnARecordedFault := by
  constructor
  · intro s f
    cases hf : s.fault with
    | none =>
      obtain ⟨t, ht⟩ := exists_step_next_of_no_fault hf
      simp [ht]
    | some g =>
      rw [step_faulted hf, ← afterReset_eq_none_iff]
      cases afterReset s.driver <;> simp
  · intro s r h
    cases hf : s.fault with
    | none =>
      obtain ⟨t, ht⟩ := exists_step_next_of_no_fault hf
      cases ht.symm.trans h
    | some g =>
      rw [step_faulted hf] at h
      split at h <;> cases h

end Sys2Proof.Machine

/-! ## Proofs: what an operation leaves unchanged -/

namespace Sys2Proof.Machine

/-! ### The frame of an operation -/

section OperationFrame

variable {i : Instr} {s t : State}

/-- Only SETA and COMPLETE write the accumulator (10_state.md R21). -/
theorem exec_keeps_a (h : exec i s = .next t) (hseta : ∀ x, i ≠ .seta x) (hcomplete : i ≠ .complete) :
    t.a = s.a := by
  cases effect_of_exec h with
  | seta x => exact absurd rfl (hseta x)
  | complete hp => exact absurd rfl hcomplete
  | setup hp => simp [State.assertDrive]
  | _ => rfl

/-- Only SETF, SETA and COMPLETE write `sr` (10_state.md R21). -/
theorem exec_keeps_sr (h : exec i s = .next t) (hsetf : ∀ f v, i ≠ .setf f v)
    (hseta : ∀ x, i ≠ .seta x) (hcomplete : i ≠ .complete) : t.sr = s.sr := by
  cases effect_of_exec h with
  | setf f v => exact absurd rfl (hsetf f v)
  | seta x => exact absurd rfl (hseta x)
  | complete hp => exact absurd rfl hcomplete
  | setup hp => simp [State.assertDrive]
  | _ => rfl

/-- Writing one flag leaves what is read of the other (40_flag_ops.md R81). -/
theorem getFlag_setFlag_of_ne (sr : Flags) (v : Bool) {f g : StatusFlag} (hne : f ≠ g) :
    getFlag (setFlag sr f v) g = getFlag sr g := by
  rw [getFlag_eq, getFlag_eq, getLsbD_setFlag, if_neg (flagIndex_injective.ne hne.symm)]

theorem exec_setf_keeps_other_flag {f g : StatusFlag} {v : Bool} (h : exec (.setf f v) s = .next t)
    (hne : f ≠ g) : getFlag t.sr g = getFlag s.sr g := by
  obtain rfl := Host.Outcome.next.inj h
  exact getFlag_setFlag_of_ne s.sr v hne

/-- Only SETUP writes `addr_bus` and `rwb` (10_state.md R21). -/
theorem exec_keeps_addrBus_and_rwb (h : exec i s = .next t) (hsetup : i ≠ .setup) :
    t.addrBus = s.addrBus ∧ t.rwb = s.rwb := by
  cases effect_of_exec h with
  | setup hp => exact absurd rfl hsetup
  | _ => exact ⟨rfl, rfl⟩

/-- Only SETUP and a READ SERVICE write `data_bus` and the trace (10_state.md R21). -/
theorem exec_keeps_dataBus_and_trace (h : exec i s = .next t) (hsetup : i ≠ .setup)
    (hread : (∀ b, i ≠ .service b) ∨ s.rwb = .write) : t.dataBus = s.dataBus ∧ t.trace = s.trace := by
  cases effect_of_exec h with
  | setup hp => exact absurd rfl hsetup
  | serviceRead b hp hm =>
    obtain hno | hwrite := hread
    · exact absurd rfl (hno b)
    · cases hm.symm.trans hwrite
  | _ => exact ⟨rfl, rfl⟩

/-- Only the bus operations move the phase (10_state.md R21). -/
theorem exec_keeps_phase (h : exec i s = .next t) (hop : cycleOp i = none) : t.phase = s.phase := by
  cases effect_of_exec h with
  | setup hp => cases hop
  | serviceRead b hp hm => cases hop
  | serviceWrite b hp hm => cases hop
  | complete hp => cases hop
  | _ => rfl

end OperationFrame

/-- Settles O37: the access table, element by element, read off the effects of the operations. -/
theorem operationsWriteOnlyTheirElements : Obligations.OperationsWriteOnlyTheirElements := by
  intro i s t h
  obtain ⟨hpc, hsp, hir, hmar, hmdr⟩ := exec_keeps_registers h
  obtain ⟨hmem, hconfig⟩ := exec_keeps_mem_and_config h
  obtain ⟨hfault, hdriver⟩ := exec_keeps_fault_and_driver h
  refine ⟨hpc, hsp, hir, hmar, hmdr, fun addr => by rw [hmem], hmem, hfault, hconfig, hdriver,
    exec_keeps_reserved h, exec_keeps_a h, exec_keeps_sr h, ?_, exec_keeps_addrBus_and_rwb h,
    exec_keeps_dataBus_and_trace h, exec_keeps_phase h⟩
  rintro f g v rfl hne
  exact exec_setf_keeps_other_flag h hne

/-! ### The frame of a step -/

/-- The parameters of one machine. -/
theorem config_keptByEachEvent (c : Config) : KeptByEachEvent fun s => s.config = c where
  taken _ hs := hs
  reset hs := hs
  stored hs _ := hs
  command hs _ h := (exec_keeps_mem_and_config h).2.trans hs
  raised hs _ := hs

/-- A step writes memory only by the store of a WRITE service (20_memory.md R41, R44). -/
theorem step_mem_cases {s t : State} (h : step s = .next t) :
    t.mem = s.mem ∨
    (s.fault = none ∧ s.driver.head? = some .svc ∧ s.phase = .asserted ∧ s.rwb = .write ∧
      t.mem = s.mem.write s.addrBus s.dataBus) := by
  obtain ⟨-, -, rfl⟩ | ⟨rest, rfl⟩ | ⟨-, cw, i, rest, -, -, h⟩ | ⟨hf, rest, hd, h⟩ |
    ⟨-, cw, rest, f, -, -, rfl⟩ | ⟨-, rest, f, -, -, rfl⟩ := step_next_cases h
  · exact .inl rfl
  · exact .inl rfl
  · exact .inl (exec_keeps_mem_and_config h).1
  · obtain ⟨hp, ⟨-, b, -, rfl⟩ | ⟨hm, rfl⟩⟩ := serviceStep_next.mp h
    · exact .inl rfl
    · exact .inr ⟨hf, by rw [hd]; rfl, hp, hm, rfl⟩
  · exact .inl rfl
  · exact .inl rfl

/-- Settles O38: no event writes the parameters, and the store of a WRITE service changes its one address, to a byte. -/
theorem onlyAWriteServiceChangesMemory : Obligations.OnlyAWriteServiceChangesMemory := by
  intro s t h
  refine ⟨(config_keptByEachEvent s.config).step rfl h, ?_⟩
  obtain hmem | ⟨hf, hd, hp, hm, hmem⟩ := step_mem_cases h
  · rw [hmem]
    exact ⟨fun addr hne => absurd rfl hne, fun _ => id⟩
  · simp only [hmem, Memory.read_write]
    constructor
    · intro addr hne
      obtain rfl : s.addrBus = addr := by
        by_contra hother
        exact hne (if_neg hother)
      exact ⟨hf, hd, hp, hm, rfl, if_pos rfl⟩
    · intro addr hsome
      split
      · simp
      · exact hsome

/-! ### The result port is read by nothing -/

theorem exec_service (b : Data) (s : State) : exec (.service b) s =
    s.inPhase .service .asserted (.next ((s.acceptByte b).enter .serviced).returnsNothing) := rfl

/-- The state with another value on the result port. -/
def State.withResult (s : State) (r : Option PortValue) : State := { s with result := r }

theorem State.acceptByte_withResult (s : State) (r : Option PortValue) (b : Data) :
    (s.withResult r).acceptByte b = (s.acceptByte b).withResult r := by
  unfold State.acceptByte
  rw [show (s.withResult r).rwb = s.rwb from rfl]
  cases s.rwb <;> rfl

/-- An operation overwrites the result port and reads nothing of it (30_encoding.md R66). -/
theorem exec_withResult (i : Instr) (s : State) (r : Option PortValue) :
    exec i (s.withResult r) = exec i s := by
  cases i with
  | service b => rw [exec_service, exec_service, State.acceptByte_withResult]; rfl
  | _ => rfl

/-- NOP and the reading operations go on in every state and write only the result port (41_register_file.md R88, R90). -/
theorem exec_of_reading {i : Instr} (hi : i = .nop ∨ returnsValue i = true) (s : State) :
    ∃ r, exec i s = .next (s.withResult r) := by
  obtain rfl | hi := hi
  · exact ⟨none, rfl⟩
  · cases i <;> cases hi <;> exact ⟨_, rfl⟩

/-- A reading operation before another operation changes nothing of the run (41_register_file.md R88 (a), R90). -/
theorem execAll_reading_cons {r : Instr} {js : List Instr} (hr : r = .nop ∨ returnsValue r = true)
    (hjs : js ≠ []) (s : State) : execAll (r :: js) s = execAll js s := by
  obtain ⟨v, hv⟩ := exec_of_reading hr s
  obtain ⟨j, js, rfl⟩ := List.exists_cons_of_ne_nil hjs
  rw [execAll_cons_of_next hv, execAll, execAll, exec_withResult]

/-- Two lists of operations that run alike run alike after the same operations. -/
theorem execAll_append_congr {js js' : List Instr} (h : ∀ s, execAll js s = execAll js' s)
    (is : List Instr) (s : State) : execAll (is ++ js) s = execAll (is ++ js') s := by
  induction is generalizing s with
  | nil => exact h s
  | cons i is ih =>
    rw [List.cons_append, List.cons_append, execAll, execAll]
    cases exec i s with
    | next t => exact ih t
    | _ => rfl

/-- Settles O40: what is placed in the run writes only the result port, which the next operation overwrites unread. -/
theorem readingOperationsDoNotDisturbARun : Obligations.ReadingOperationsDoNotDisturbARun :=
  fun _ is _ s hr hjs => execAll_append_congr (execAll_reading_cons hr hjs) is s

/-! ### Memory is seen by no command -/

/-- The state with other memory contents. -/
def State.withMem (s : State) (m : Memory) : State := { s with mem := m }

section MemoryReplaced

variable (s : State) (m : Memory)

/-- The phase gate looks at the phase alone, so it keeps the agreement of what it lets through. -/
theorem agreeButMemory_inPhase {op : BusOp} {p : Phase} {o o' : Outcome} (h : agreeButMemory o o') :
    agreeButMemory ((s.withMem m).inPhase op p o) (s.inPhase op p o') := by
  unfold State.inPhase
  rw [show (s.withMem m).phase = s.phase from rfl]
  split
  · exact h
  · rfl

theorem State.acceptByte_withMem (b : Data) :
    (s.withMem m).acceptByte b = (s.acceptByte b).withMem m := by
  unfold State.acceptByte
  rw [show (s.withMem m).rwb = s.rwb from rfl]
  cases s.rwb <;> rfl

theorem agreeButMemory_exec (i : Instr) : agreeButMemory (exec i (s.withMem m)) (exec i s) := by
  cases i with
  | setup => exact agreeButMemory_inPhase s m rfl
  | service b =>
    rw [exec_service, exec_service, State.acceptByte_withMem]
    exact agreeButMemory_inPhase s m rfl
  | complete => exact agreeButMemory_inPhase s m rfl
  | _ => rfl

end MemoryReplaced

/-- Settles O42: no operation's meaning mentions the memory device. -/
theorem commandsDoNotSeeMemory : Obligations.CommandsDoNotSeeMemory :=
  fun i s m => agreeButMemory_exec s m i

end Sys2Proof.Machine

/-! ## Proofs: the laws of the flags -/

namespace Sys2Proof.Machine

section FlagWrites

variable (sr : Flags)

/-- The last of two writes to a flag wins (40_flag_ops.md R83 (b)). -/
theorem setFlag_setFlag_same (f : StatusFlag) (v w : Bool) :
    setFlag (setFlag sr f v) f w = setFlag sr f w := by
  apply BitVec.eq_of_getLsbD_eq
  intro n _
  simp only [getLsbD_setFlag]
  split <;> rfl

/-- Writes to two flags commute (40_flag_ops.md R83 (c)). -/
theorem setFlag_comm {f g : StatusFlag} (hne : f ≠ g) (v w : Bool) :
    setFlag (setFlag sr f v) g w = setFlag (setFlag sr g w) f v := by
  have hindex : flagIndex f ≠ flagIndex g := flagIndex_injective.ne hne
  apply BitVec.eq_of_getLsbD_eq
  intro n _
  simp only [getLsbD_setFlag]
  by_cases hf : n = flagIndex f
  · simp [hf, hindex]
  · simp [hf]

/-- Writing a flag what it holds changes nothing. -/
theorem setFlag_getFlag (f : StatusFlag) : setFlag sr f (getFlag sr f) = sr := by
  apply BitVec.eq_of_getLsbD_eq
  intro n _
  rw [getLsbD_setFlag, getFlag_eq]
  split
  · next hn => rw [hn]
  · rfl

/-- Both flags written: the reserved bits, and the two masks by their booleans (40_flag_ops.md R83 (d)). -/
theorem setFlag_zro_setFlag_neg (z n : Bool) : setFlag (setFlag sr .zro z) .neg n =
    (sr &&& 0x7D) ||| (if z then 0x02 else 0x00) ||| (if n then 0x80 else 0x00) := by
  revert sr
  cases z <;> cases n <;> decide

/-- The accumulator load in closed form (41_register_file.md R85). -/
theorem refreshFlags_eq (x : Data) :
    refreshFlags sr x = (sr &&& 0x7D) ||| (if x = 0x00 then 0x02 else 0x00) ||| (x &&& 0x80) := by
  have hneg : x &&& 0x80 = if negOf x then 0x80 else 0x00 := BitVec.and_twoPow x 7
  rw [refreshFlags, setFlag_zro_setFlag_neg, hneg]
  simp [zroOf]

end FlagWrites

section SetfRuns

variable (s : State) (f g : StatusFlag) (v w : Bool)

theorem execAll_setf :
    execAll [.setf f v] s = .next { s with sr := setFlag s.sr f v, result := none } := rfl

theorem execAll_setf_setf : execAll [.setf f v, .setf g w] s =
    .next { s with sr := setFlag (setFlag s.sr f v) g w, result := none } := rfl

end SetfRuns

/-- Settles O31: two SETF write `sr` twice, and each law is one of two such writes. -/
theorem setfLaws : Obligations.SetfLaws := by
  intro s f v w z n
  simp only [execAll_setf, execAll_setf_setf, setFlag_setFlag_same,
    setFlag_comm s.sr (show StatusFlag.neg ≠ .zro by decide), setFlag_zro_setFlag_neg, and_self]

/-- Settles O32: SETA and COMPLETE are the accumulator load of a byte. -/
theorem accumulatorLoadClosedForm : Obligations.AccumulatorLoadClosedForm := by
  refine ⟨fun x s => ?_, fun s hp => ?_⟩
  · rw [exec_seta, ← refreshFlags_eq]; rfl
  · rw [exec_complete_of_serviced hp, ← refreshFlags_eq]; rfl

/-! ### The coupling of the flags to the accumulator -/

/-- The flags are those of the byte in the accumulator (10_state.md R26). -/
theorem coupled_iff {s : State} :
    Coupled s ↔ getFlag s.sr .zro = zroOf s.a ∧ getFlag s.sr .neg = negOf s.a := Iff.rfl

/-- The coupling speaks of the accumulator and `sr` alone. -/
theorem coupled_congr {s t : State} (ha : t.a = s.a) (hsr : t.sr = s.sr) : Coupled t ↔ Coupled s := by
  rw [Coupled, Coupled, ha, hsr]

/-- Two coupled states with one accumulator read the same flags. -/
theorem getFlag_eq_of_coupled {s t : State} (hs : Coupled s) (ht : Coupled t) (ha : t.a = s.a)
    (f : StatusFlag) : getFlag t.sr f = getFlag s.sr f := by
  rw [coupled_iff] at hs ht
  cases f with
  | zro => rw [ht.1, hs.1, ha]
  | neg => rw [ht.2, hs.2, ha]

/-- From a coupled state a SETF breaks the coupling exactly when it changes a bit (70_reset_and_hazards.md R133). -/
theorem coupled_after_setf_iff {s t : State} {f : StatusFlag} {v : Bool} (hs : Coupled s)
    (h : exec (.setf f v) s = .next t) : Coupled t ↔ t.sr = s.sr := by
  have ha : t.a = s.a := exec_keeps_a h (by simp) (by simp)
  refine ⟨fun ht => ?_, fun hsr => (coupled_congr ha hsr).mpr hs⟩
  have hkept : getFlag t.sr f = getFlag s.sr f := getFlag_eq_of_coupled hs ht ha f
  obtain rfl := Host.Outcome.next.inj h
  rw [State.returnsNothing_sr, State.writeFlag_sr, getFlag_setFlag_same] at hkept
  rw [State.returnsNothing_sr, State.writeFlag_sr, hkept, setFlag_getFlag]

/-- Settles O34: a load writes the flags of its byte, the other operations but SETF write neither side, and a SETF keeps the coupling just where it writes what the flag held. -/
theorem couplingHoldsAfterLoads : Obligations.CouplingHoldsAfterLoads := by
  refine ⟨fun s t x h => ?_, fun s t h => ?_, fun i s t h hsetf hseta hcomplete => ?_, by decide,
    fun s t f v => coupled_after_setf_iff⟩
  · obtain rfl := Host.Outcome.next.inj h
    exact coupled_of_sr_eq_refreshFlags (sr := s.sr) rfl
  · obtain ⟨-, rfl⟩ := execComplete_next.mp h
    exact coupled_of_sr_eq_refreshFlags (sr := s.sr) rfl
  · exact coupled_congr (exec_keeps_a h hseta hcomplete) (exec_keeps_sr h hsetf hseta hcomplete)

/-! ### The values of `sr` that runs reach -/

theorem registerInv_of_reachable {t : State} (h : Reachable t) : RegisterInv t := by
  obtain ⟨mem, config, driver, n, hmem, hrun⟩ := h
  exact registerInv_keptByEachEvent.runSteps (registerInv_launch mem config driver hmem) hrun

/-- Two SETF from a launch set both flags as one likes (40_flag_ops.md R80). -/
theorem exists_reachable_flags (z n : Bool) :
    ∃ t, Reachable t ∧ t.sr = setFlag (setFlag 0 .zro z) .neg n := by
  exact ⟨_, ⟨[], referenceConfig, commandsOf [.setf .zro z, .setf .neg n], 2, rfl,
    (runSteps_succ_of_next (step_of_exec_next rfl rfl (exec_setf _ .zro z))).trans <|
      (runSteps_succ_of_next (step_of_exec_next rfl rfl (exec_setf _ .neg n))).trans <|
        runSteps_zero _⟩, rfl⟩

/-- Settles O36: the reserved bits stay clear on every run, which leaves four bytes, and two SETF reach each of them. -/
theorem reachableStatusBytes : Obligations.ReachableStatusBytes := by
  have bytes : ∀ v : Flags, v &&& 0x7D#8 = 0 → v = 0x00 ∨ v = 0x02 ∨ v = 0x80 ∨ v = 0x82 := by decide
  intro v
  constructor
  · rintro ⟨t, ht, rfl⟩
    exact bytes t.sr (registerInv_of_reachable ht).srReservedClear
  · rintro (rfl | rfl | rfl | rfl)
    · exact exists_reachable_flags false false
    · exact exists_reachable_flags true false
    · exact exists_reachable_flags false true
    · exact exists_reachable_flags true true

end Sys2Proof.Machine

/-! ## Proofs: the READ cycle, and cycles repeated -/

namespace Sys2Proof.Machine

/-! ### The READ cycle -/

/-- What the service step leaves of a READ cycle. -/
def State.afterReadService (s : State) (b : Data) (rest : List DriverEvent) : State :=
  (((s.withDriver rest).driveData b).enter .serviced).returnsNothing

section ReadService

variable (s : State) (b : Data) (rest : List DriverEvent)

@[simp] theorem State.afterSetup_a : (s.afterSetup rest).a = s.a := by
  simp [State.afterSetup, State.assertDrive]
@[simp] theorem State.afterSetup_config : (s.afterSetup rest).config = s.config := by
  simp [State.afterSetup, State.assertDrive]

@[simp] theorem State.afterReadService_sr : (s.afterReadService b rest).sr = s.sr := rfl
@[simp] theorem State.afterReadService_addrBus : (s.afterReadService b rest).addrBus = s.addrBus := rfl
@[simp] theorem State.afterReadService_dataBus : (s.afterReadService b rest).dataBus = b := rfl
@[simp] theorem State.afterReadService_rwb : (s.afterReadService b rest).rwb = s.rwb := rfl
@[simp] theorem State.afterReadService_phase : (s.afterReadService b rest).phase = .serviced := rfl
@[simp] theorem State.afterReadService_fault : (s.afterReadService b rest).fault = s.fault := rfl
@[simp] theorem State.afterReadService_mem : (s.afterReadService b rest).mem = s.mem := rfl
@[simp] theorem State.afterReadService_driver : (s.afterReadService b rest).driver = rest := rfl

end ReadService

section ReadCycle

variable {s : State} {b : Data} {rest : List DriverEvent}

theorem step_svc_read (hf : s.fault = none) (hp : s.phase = .asserted) (hm : s.rwb = .read)
    (hb : s.serviceByte = some b) (hd : s.driver = .svc :: rest) :
    step s = .next (s.afterReadService b rest) :=
  step_of_serviceStep_next hf hd (serviceStep_of_read hp hm hb)

/-- The three steps of a READ cycle whose service finds a byte, each from the state the last one leaves. -/
theorem runSteps_readCycle (hf : s.fault = none) (hp : s.phase = .idle)
    (hm : s.setupDrive.mode = .read)
    (hd : s.driver = .edge false 0x5000 :: .svc :: .edge false 0x7000 :: rest)
    (hb : s.mem.read s.setupDrive.addr = some b ∨
      (s.mem.read s.setupDrive.addr = none ∧ s.config.absentRead = .fill b)) :
    runSteps 3 s = .next (((s.afterSetup (.svc :: .edge false 0x7000 :: rest)).afterReadService b
      (.edge false 0x7000 :: rest)).afterComplete rest) := by
  have hbyte : (s.afterSetup (.svc :: .edge false 0x7000 :: rest)).serviceByte = some b :=
    serviceByte_eq_some.mpr (by simpa using hb)
  rw [runSteps_succ_of_next (step_setup hf hp hd),
    runSteps_succ_of_next (step_svc_read (by simpa) (by simp) (by simpa) hbyte (State.afterSetup_driver _ _)),
    runSteps_succ_of_next (step_complete (by simpa) (by simp) (State.afterReadService_driver _ _ _)),
    runSteps_zero]

/-- The two steps of a READ cycle whose service finds nothing under `fatal` (60_exceptions.md R112). -/
theorem runSteps_absentRead (hf : s.fault = none) (hp : s.phase = .idle)
    (hm : s.setupDrive.mode = .read) (hd : s.driver = .edge false 0x5000 :: .svc :: rest)
    (hnone : s.mem.read s.setupDrive.addr = none) (hfatal : s.config.absentRead = .fatal) :
    runSteps 2 s = .next (((s.afterSetup (.svc :: rest)).withDriver rest).raise
      (.absentRead s.setupDrive.addr)) := by
  have hraise : serviceStep ((s.afterSetup (.svc :: rest)).withDriver rest) =
      .fault (.absentRead s.setupDrive.addr) := by
    refine serviceStep_fault_iff.mpr (.inr ?_)
    simp [hm, hnone, hfatal]
  rw [runSteps_succ_of_next (step_setup hf hp hd),
    runSteps_succ_of_next (step_of_serviceStep_fault (by simpa) (State.afterSetup_driver _ _) hraise),
    runSteps_zero]

end ReadCycle

/-- Settles O46: the READ service puts its byte on `data_bus`, which COMPLETE loads; where there is none the service raises. -/
theorem readCycleLoadsFromMemory : Obligations.ReadCycleLoadsFromMemory := by
  intro s rest hf hp hd hm
  refine ⟨fun b hb => ?_, fun hnone hfatal => ⟨_, runSteps_absentRead hf hp hm hd hnone hfatal, ?_⟩⟩
  · refine ⟨_, runSteps_readCycle hf hp hm hd hb, ?_⟩
    have hzro := getLsbD_refreshFlags_zro s.sr b
    have hneg := getLsbD_refreshFlags_neg s.sr b
    simpa [Completed, hf, ← hm, State.setupDrive, zroOf, negOf] using And.intro hzro hneg
  · simp [State.setupDrive]

/-! ### Other operations between the service and COMPLETE -/

/-- Operations outside the cycle go on and keep the phase and `data_bus` (42_bus_cycle.md R103). -/
theorem execAll_keeps_phase_and_dataBus {is : List Instr} (his : ∀ i ∈ is, cycleOp i = none) (s : State) :
    ∃ t, (∀ js, execAll (is ++ js) s = execAll js t) ∧ t.phase = s.phase ∧ t.dataBus = s.dataBus := by
  induction is generalizing s with
  | nil => exact ⟨s, fun _ => rfl, rfl, rfl⟩
  | cons i is ih =>
    rw [List.forall_mem_cons] at his
    obtain ⟨hop, his⟩ := his
    obtain ⟨u, hu, hphase⟩ := exec_of_not_cycleOp (s := s) hop
    have hdata : u.dataBus = s.dataBus := by
      refine (exec_keeps_dataBus_and_trace hu ?_ (.inl ?_)).1
      · rintro rfl
        cases hop
      · rintro b rfl
        cases hop
    obtain ⟨t, ht, htp, htd⟩ := ih his u
    refine ⟨t, fun js => ?_, htp.trans hphase, htd.trans hdata⟩
    rw [List.cons_append, execAll_cons_of_next hu, ht]

/-- Settles O47: what stands between keeps the phase and `data_bus`, so COMPLETE goes on and loads that byte. -/
theorem completionLoadsTheServicedByte : Obligations.CompletionLoadsTheServicedByte := by
  intro is s hp his
  obtain ⟨t, hrun, htp, htd⟩ := execAll_keeps_phase_and_dataBus his s
  have hcomplete := exec_complete_of_serviced (htp.trans hp)
  refine ⟨_, (hrun [.complete]).trans (execAll_cons_of_next hcomplete), htd, htd, rfl, ?_⟩
  exact coupled_of_sr_eq_refreshFlags (sr := t.sr) rfl

/-! ### The reference cycle repeated -/

/-- The three events of a reference cycle (42_bus_cycle.md R106). -/
def referenceEvents : List BusEvent := [.driveAddr 0x00FF, .driveData 0x2A, .driveMode .write]

/-- A cycle that drives the reference triple stores its byte and loads it (42_bus_cycle.md R104). -/
theorem runSteps_cycle_of_referenceDrive {s : State} {rest : List DriverEvent} (hf : s.fault = none)
    (hp : s.phase = .idle) (hd : s.driver = cycleEvents ++ rest) (hdrive : s.setupDrive = referenceDrive) :
    runSteps 3 s = .next { s with
      a := 0x2A, sr := refreshFlags s.sr 0x2A, addrBus := 0x00FF, dataBus := 0x2A, rwb := .write
      phase := .idle, trace := s.trace ++ referenceEvents, mem := s.mem.write 0x00FF 0x2A
      result := none, driver := rest } := by
  rw [runSteps_writeCycle hf hp (by rw [hdrive]; rfl) hd, State.afterSetup, hdrive, State.assertDrive_eq]
  simp [State.afterComplete, State.afterWriteService, State.withDriver, State.store, State.loadA,
    State.enter, State.returnsNothing, referenceDrive, referenceEvents]

/-- The machine after some reference cycles from reset, with this schedule still to come. -/
def State.afterReferenceCycles (driver : List DriverEvent) : Nat → State
  | 0 => { State.reset with driver := driver }
  | n + 1 => { State.reset with
      a := 0x2A, sr := 0x00, addrBus := 0x00FF, dataBus := 0x2A, rwb := .write,
      mem := [(0x00FF, 0x2A)]
      trace := (List.replicate (n + 1) referenceEvents).flatten
      driver := driver }

/-- One more reference cycle (42_bus_cycle.md R106). -/
theorem runSteps_referenceCycle (n : Nat) (rest : List DriverEvent) :
    runSteps 3 (State.afterReferenceCycles (cycleEvents ++ rest) n) =
      .next (State.afterReferenceCycles rest (n + 1)) := by
  have hflags : refreshFlags 0#8 42#8 = 0#8 := by decide
  cases n with
  | zero =>
    rw [runSteps_cycle_of_referenceDrive (rest := rest) rfl rfl rfl rfl]
    simp [State.afterReferenceCycles, State.reset, hflags, Memory.write, insertCell]
  | succ n =>
    rw [runSteps_cycle_of_referenceDrive (rest := rest) rfl rfl rfl rfl]
    simp [State.afterReferenceCycles, State.reset, hflags, Memory.write, insertCell,
      List.replicate_succ' (n := n + 1)]

theorem runSteps_add_of_next {m n : Nat} {s t : State} (h : runSteps m s = .next t) :
    runSteps (m + n) s = runSteps n t := by
  induction m generalizing s with
  | zero =>
    obtain rfl := Host.Outcome.next.inj h
    rw [Nat.zero_add]
  | succ m ih =>
    rw [Nat.add_right_comm, runSteps_succ]
    rw [runSteps_succ] at h
    split at h
    case h_1 u hu => exact ih h
    all_goals cases h

theorem runSteps_referenceCycles (k n : Nat) :
    runSteps (3 * k) (State.afterReferenceCycles (List.replicate k cycleEvents).flatten n) =
      .next (State.afterReferenceCycles [] (n + k)) := by
  induction k generalizing n with
  | zero => rfl
  | succ k ih =>
    rw [List.replicate_succ, List.flatten_cons, Nat.mul_succ, Nat.add_comm (3 * k),
      runSteps_add_of_next (runSteps_referenceCycle n _), ih, Nat.add_right_comm, Nat.add_assoc]

/-- Settles O49: each cycle leads from the state after so many cycles to the state after one more. -/
theorem repeatedReferenceCyclesAgree : Obligations.RepeatedReferenceCyclesAgree := by
  intro n
  have h := runSteps_referenceCycles (n + 1) 0
  rw [Nat.zero_add] at h
  exact h

end Sys2Proof.Machine

/-! ## Proofs: memory and the parameters as data -/

namespace Sys2Proof.Machine

/-! ### Canonical memories -/

/-- In a memory whose addresses rise from a bound, what is listed is not below it. -/
theorem le_of_lookupCell_eq_some {m : Memory} {low k : Nat} {b : Data} (hm : risingFrom low m = true)
    (h : lookupCell k m = some b) : low ≤ k := by
  induction m generalizing low with
  | nil => cases h
  | cons c cells ih =>
    obtain ⟨j, b'⟩ := c
    simp only [risingFrom, Bool.and_eq_true, decide_eq_true_eq] at hm
    obtain ⟨hlow, hcells⟩ := hm
    rw [lookupCell] at h
    split at h
    · omega
    · have hk : j + 1 ≤ k := ih hcells h
      omega

theorem lookupCell_cons_self (k : Nat) (b : Data) (m : Memory) : lookupCell k ((k, b) :: m) = some b :=
  if_pos rfl

/-- The tail of a rising memory lists what the whole lists, but for the first address. -/
theorem lookupCell_tail {m : Memory} {j : Nat} (b : Data) (hm : risingFrom (j + 1) m = true) (k : Nat) :
    lookupCell k m = if j = k then none else lookupCell k ((j, b) :: m) := by
  by_cases hk : j = k
  · subst hk
    rw [if_pos rfl, Option.eq_none_iff_forall_ne_some]
    intro b' h
    have hle : j + 1 ≤ j := le_of_lookupCell_eq_some hm h
    omega
  · rw [if_neg hk, lookupCell, if_neg hk]

/-- Two rising memories that list the same bytes are the same list. -/
theorem eq_of_lookupCell_eq {m m' : Memory} {low low' : Nat} (hm : risingFrom low m = true)
    (hm' : risingFrom low' m' = true) (h : ∀ k, lookupCell k m = lookupCell k m') : m = m' := by
  induction m generalizing m' low low' with
  | nil =>
    cases m' with
    | nil => rfl
    | cons c' cells' =>
      have hlisted := h c'.1
      rw [lookupCell_cons_self] at hlisted
      cases hlisted
  | cons c cells ih =>
    obtain ⟨j, b⟩ := c
    cases m' with
    | nil =>
      have hlisted := h j
      rw [lookupCell_cons_self] at hlisted
      cases hlisted
    | cons c' cells' =>
      obtain ⟨j', b'⟩ := c'
      simp only [risingFrom, Bool.and_eq_true, decide_eq_true_eq] at hm hm'
      obtain ⟨-, hcells⟩ := hm
      obtain ⟨-, hcells'⟩ := hm'
      have hle : j' ≤ j := le_of_lookupCell_eq_some (m := (j', b') :: cells')
        (by simp [risingFrom, hcells']) ((h j).symm.trans (lookupCell_cons_self j b cells))
      have hge : j ≤ j' := le_of_lookupCell_eq_some (m := (j, b) :: cells)
        (by simp [risingFrom, hcells]) ((h j').trans (lookupCell_cons_self j' b' cells'))
      obtain rfl : j = j' := le_antisymm hge hle
      have hb : some b = some b' := by
        rw [← lookupCell_cons_self j b cells, h, lookupCell_cons_self]
      obtain rfl := Option.some.inj hb
      have htails : ∀ k, lookupCell k cells = lookupCell k cells' := fun k => by
        rw [lookupCell_tail b hcells, lookupCell_tail b hcells', h]
      rw [ih hcells hcells' htails]

theorem mem_of_lookupCell_eq_some {m : Memory} {k : Nat} {b : Data} (h : lookupCell k m = some b) :
    (k, b) ∈ m := by
  induction m with
  | nil => cases h
  | cons c cells ih =>
    obtain ⟨j, b'⟩ := c
    rw [lookupCell] at h
    split at h
    · next hj =>
      obtain rfl := Option.some.inj h
      simp [hj]
    · exact List.mem_cons_of_mem _ (ih h)

theorem risingFrom_of_wf {m : Memory} (hm : m.wf = true) : risingFrom 0 m = true := by
  rw [Memory.wf, Bool.and_eq_true] at hm
  exact hm.1

/-- A canonical memory lists only the 65536 locations (20_memory.md R49). -/
theorem lookupCell_eq_none_of_wf {m : Memory} {k : Nat} (hm : m.wf = true) (hk : 65536 ≤ k) :
    lookupCell k m = none := by
  rw [Option.eq_none_iff_forall_ne_some]
  intro b h
  simp only [Memory.wf, Bool.and_eq_true, List.all_eq_true, decide_eq_true_eq] at hm
  have hlt : k < 65536 := hm.2 _ (mem_of_lookupCell_eq_some h)
  omega

/-- Settles O51: reads are the listed bytes of the 65536 locations, and a rising list is given by what it lists. -/
theorem canonicalMemoriesAreEqualData : Obligations.CanonicalMemoriesAreEqualData := by
  intro m m' hm hm' h
  refine eq_of_lookupCell_eq (risingFrom_of_wf hm) (risingFrom_of_wf hm') fun k => ?_
  by_cases hk : k < 65536
  · simpa [Memory.read, Nat.mod_eq_of_lt hk] using h (BitVec.ofNat 16 k)
  · rw [lookupCell_eq_none_of_wf hm (by omega), lookupCell_eq_none_of_wf hm' (by omega)]

/-! ### The `SetupSource` -/

/-- A setup turns the tuple it is given into one that differs in the lines it drives. -/
theorem State.assertDrive_view (s : State) (d : BusDrive) : (s.assertDrive d).view =
    { s.view with addrBus := d.addr, dataBus := d.data, rwb := d.mode } := rfl

/-- Settles O52: the triple is the source's answer to the tuple, and the tuple after is the tuple before with the triple on the lines. -/
theorem setupSeesOnlyTheTuple : Obligations.SetupSeesOnlyTheTuple := by
  intro s s' t t' hview hconfig h h'
  obtain ⟨-, rfl⟩ := execSetup_next.mp h
  obtain ⟨-, rfl⟩ := execSetup_next.mp h'
  have hdrive : s.setupDrive = s'.setupDrive := by
    rw [State.setupDrive, hview, hconfig, State.setupDrive]
  have hafter : (s.assertDrive s.setupDrive).view = (s'.assertDrive s'.setupDrive).view := by
    rw [State.assertDrive_view, State.assertDrive_view, hview, hdrive]
  exact ⟨congrArg BusDrive.addr hdrive, congrArg BusDrive.data hdrive, congrArg BusDrive.mode hdrive,
    hafter⟩

theorem busModeBit_injective : Function.Injective busModeBit := by
  rintro (_ | _) (_ | _) h
  · rfl
  · cases h
  · cases h
  · rfl

/-- The ten-tuple as a tuple of words. -/
def BlockView.words (v : BlockView) :
    Word × Word × Byte × Flags × Byte × Word × Byte × Address × Data × Bool :=
  (v.pc, v.sp, v.a, v.sr, v.ir, v.mar, v.mdr, v.addrBus, v.dataBus, busModeBit v.rwb)

theorem BlockView.words_injective : Function.Injective BlockView.words := by
  rintro ⟨⟩ ⟨⟩ h
  simpa [BlockView.words, busModeBit_injective.eq_iff] using h

/-- The ten-tuple has finitely many values (42_bus_cycle.md R95). -/
theorem finite_blockView : Finite BlockView :=
  Finite.of_injective BlockView.words BlockView.words_injective

/-- A table of a function's values answers the function on every tuple it lists. -/
theorem lookupDrive_map (otherwise : BusDrive) (f : BlockView → BusDrive) {vs : List BlockView}
    {v : BlockView} (hv : v ∈ vs) : lookupDrive otherwise (vs.map fun u => (u, f u)) v = f v := by
  induction vs with
  | nil => cases hv
  | cons u vs ih =>
    rw [List.map_cons, lookupDrive]
    split
    · next hu => rw [hu]
    · next hu => exact ih (List.mem_of_ne_of_mem (Ne.symm hu) hv)

/-- Settles O53: the table of all values of the function, the tuple having finitely many. -/
theorem setupTablesExpressEveryFunction : Obligations.SetupTablesExpressEveryFunction := by
  intro f
  obtain ⟨vs, -, hvs⟩ := finite_blockView.exists_univ_list
  exact ⟨⟨referenceDrive, vs.map fun u => (u, f u)⟩, fun v => lookupDrive_map _ f (hvs v)⟩

end Sys2Proof.Machine
